-- ==== Sys2Proof/Word.lean ====
section
/-! DEFINITION. The units every rule is written in: bytes, byte strings, bits, 32-bit counters (spec/00_scope.md R12). -/

namespace Sys2Proof

/-- `u8` of R12: an unsigned byte, bit 7 the most significant (R13). -/
abbrev Byte := BitVec 8

/-- `Bytes` of R12: a finite list of bytes, element 0 the first byte on the wire (R14). -/
abbrev Bytes := List Byte

/-- `bit` of R12: `false` is 0 and `true` is 1, so `x XOR 1` is `!x`. -/
abbrev Bit := Bool

/-- `u32` of R12: 0 .. 2^32 - 1, arithmetic modulo 2^32. -/
abbrev U32 := BitVec 32

end Sys2Proof
end

