-- ==== Sys2Proof/Config.lean ====
section
/-! DEFINITION. What an implementation of the core fixes: the closed sets of roles and frame kinds, the
parameters of spec/00_scope.md R10 with their default values, and the values the spec leaves free. -/

namespace Sys2Proof

/-- The role of a session (spec/10_state.md R32). -/
inductive Role where
  | sender
  | receiver
deriving DecidableEq, Repr

/-- The nine frame kinds (spec/30_encoding.md R103). -/
inductive FrameKind where
  | set | ua | disc | rr0 | rr1 | rej0 | rej1 | i0 | i1
deriving DecidableEq, Repr

/-- The seven supervisory kinds, those a signal `SUP(k)` can carry (spec/41_receiver_fsm.md R201). -/
inductive SupKind where
  | set | ua | disc | rr0 | rr1 | rej0 | rej1
deriving DecidableEq, Repr

/-- The implementation parameters of spec/00_scope.md R10. They are data of the machine (`State.params`), so that
every statement is about every profile. `timeout_seconds`, `max_attempts` and `role` are operands of `open`. -/
structure Params where
  flag : Byte
  esc : Byte
  aS : Byte
  aR : Byte
  cSet : Byte
  cUa : Byte
  cDisc : Byte
  cRr0 : Byte
  cRr1 : Byte
  cRej0 : Byte
  cRej1 : Byte
  cI0 : Byte
  cI1 : Byte
  maxPayload : Nat
  rxBufCap : Nat
  maxAttemptsLimit : Nat
deriving DecidableEq, Repr

/-- The default profile and default sizes (R10; spec/92_eei_decisions.md D1, D2, D3). PRESUMED by the spec itself:
the wire bytes are "from general knowledge, not in source" (spec/93_implementation_defined.md G1). -/
def Params.default : Params where
  flag := 0x7E
  esc := 0x7D
  aS := 0x03
  aR := 0x01
  cSet := 0x03
  cUa := 0x07
  cDisc := 0x0B
  cRr0 := 0x05
  cRr1 := 0x85
  cRej0 := 0x01
  cRej1 := 0x81
  cI0 := 0x00
  cI1 := 0x40
  maxPayload := 1000
  rxBufCap := 1001
  maxAttemptsLimit := 2 ^ 32 - 1

/-- Profile B of spec/93_implementation_defined.md section 3, a second legal profile. -/
def Params.profileB : Params :=
  { Params.default with
    cRr0 := 0xAA, cRr1 := 0xAB, cRej0 := 0x54, cRej1 := 0x55, cI0 := 0x00, cI1 := 0x80 }

/-- The byte that stands for a literal FLAG after ESC (R10, spec/30_encoding.md R109); fixed by the source. -/
def escFollowFlag : Byte := 0x5E

/-- The byte that stands for a literal ESC after ESC (R10, spec/30_encoding.md R109); fixed by the source. -/
def escFollowEsc : Byte := 0x5D

/-- FREE VALUE: `seq(k)` "is undefined for SET, UA and DISC" (spec/30_encoding.md R103). -/
opaque Config.undefinedSeq : FrameKind → Bit

/-- FREE VALUE: bit 12 of STATUS is "unspecified before the first `open`" (spec/10_state.md R50). The argument
counts the reads of the view, so that two reads need not agree. -/
opaque Config.unwrittenRole : Nat → Bit

end Sys2Proof
end

