-- ==== Sys2Proof/Syntax.lean ====
section
/-! DEFINITION. The instructions (one constructor per row of spec/opcode_table.json), the words that carry them on
the two ports, and the registers and signals of the parser that decodes frames. -/

namespace Sys2Proof

/-- One constructor per row of spec/opcode_table.json. The nine frame kinds are instructions the channel delivers
(spec/30_encoding.md R103); the operand of an information frame is its destuffed, checked payload (R102). The four
host commands carry the operands of R121 (`hostOpen` is OPEN, and so on). -/
inductive Instr where
  | set
  | ua
  | disc
  | rr0
  | rr1
  | rej0
  | rej1
  | i0 (payload : Bytes)
  | i1 (payload : Bytes)
  | hostOpen (role : Role) (maxAttempts timeout : U32) (device baud : Bytes)
  | hostSend (payload : Bytes)
  | hostReceive
  | hostClose (collect : Bit)
deriving DecidableEq, Repr

/-- A command word on the host port: the 2-bit field CMD (spec/30_encoding.md R120) and the operand fields of R121.
The spec gives the operands no bit positions, so the word is a record of fields (DESIGN CHOICE, log entry 7). A field
that a command does not use is ignored. -/
structure HostWord where
  cmd : BitVec 2
  role : Bit
  maxAttempts : U32
  timeout : U32
  device : Bytes
  baud : Bytes
  payload : Bytes
  collect : Bit
deriving DecidableEq, Repr

/-- The command word of a code whose operand fields are all zero or empty. -/
def HostWord.bare (cmd : BitVec 2) : HostWord where
  cmd := cmd
  role := false
  maxAttempts := 0
  timeout := 0
  device := []
  baud := []
  payload := []
  collect := false

/-- What one port carries: bytes of the channel, or a command word of the host port
(spec/60_exceptions.md R430). -/
inductive PortWord where
  | channel (bs : Bytes)
  | host (w : HostWord)
deriving DecidableEq, Repr

/-- The resting states of the frame receiver (spec/10_state.md R42). -/
inductive RxState where
  | start | flagSeen | addrSeen | ctrlSeen | headerOk | reading | escape
deriving DecidableEq, Repr

/-- The three parser registers `rx_state`, `rx_ctrl`, `rx_buf` (spec/10_state.md R42). -/
structure ParserRegs where
  state : RxState
  ctrl : FrameKind
  buf : Bytes
deriving DecidableEq, Repr

/-- The parser's outputs (spec/41_receiver_fsm.md R201). -/
inductive Signal where
  | sup (k : SupKind)
  | info (s : Bit) (pl : Bytes)
  | ckfail (s : Bit)
  | overflow
deriving DecidableEq, Repr

/-- Why the decoder gives no instruction for some bytes. None of these traps: the core resynchronises or answers a
signal (spec/30_encoding.md R112, spec/60_exceptions.md R402). -/
inductive DecodeError where
  /-- the bytes ran out before a frame was complete; the parser rests in `st` -/
  | noFrame (st : RxState)
  /-- signal CKFAIL -/
  | checksumFailed
  /-- signal OVERFLOW -/
  | bufferOverflow
  /-- bytes stand after the frame -/
  | trailingBytes
deriving DecidableEq, Repr

/-- What decoding answers: the instruction, or a rejection by name. -/
inductive Decoded (α : Type) where
  | ok (a : α)
  | reject (e : DecodeError)
deriving DecidableEq, Repr

end Sys2Proof
end

