-- ==== Sys2Proof/WellFormed.lean ====
section
/-! DEFINITION. Which instructions have an encoding that a legal receiver accepts. -/

namespace Sys2Proof

/-- A payload and its checksum byte fit the receive buffer (spec/40_frame_codec.md R160,
spec/41_receiver_fsm.md R227). -/
def payloadFits (p : Params) (pl : Bytes) : Bool :=
  decide (pl.length + 1 ≤ p.rxBufCap)

/-- An instruction is well formed when its operands fit its encoding: an information frame's payload must fit the
receive buffer. Every operand of a host command is well formed as it stands ("Any length may be presented",
spec/30_encoding.md R121); its range checks are the command's own and end in a result code. -/
def Instr.wf (p : Params) (i : Instr) : Bool :=
  match i with
  | .set => true
  | .ua => true
  | .disc => true
  | .rr0 => true
  | .rr1 => true
  | .rej0 => true
  | .rej1 => true
  | .i0 pl => payloadFits p pl
  | .i1 pl => payloadFits p pl
  | .hostOpen _ _ _ _ _ => true
  | .hostSend _ => true
  | .hostReceive => true
  | .hostClose _ => true

end Sys2Proof
end

