-- ==== Sys2Proof/Decode.lean ====
section
/-! DEFINITION. The frame codec and the frame receiver: the constraints on the constants, the control-byte table, the
checksum, the parser that decodes a byte stream into instructions, the host port's decoder, and the encoders
(spec/30_encoding.md, spec/40_frame_codec.md, spec/41_receiver_fsm.md R200 to R229). -/

namespace Sys2Proof

/-! ### Control bytes -/

/-- The nine kinds, in the order of R103. -/
def allKinds : List FrameKind :=
  [.set, .ua, .disc, .rr0, .rr1, .rej0, .rej1, .i0, .i1]

/-- `ctrl(k)`, the control byte of a kind (spec/30_encoding.md R103). -/
def ctrl (p : Params) (k : FrameKind) : Byte :=
  match k with
  | .set => p.cSet
  | .ua => p.cUa
  | .disc => p.cDisc
  | .rr0 => p.cRr0
  | .rr1 => p.cRr1
  | .rej0 => p.cRej0
  | .rej1 => p.cRej1
  | .i0 => p.cI0
  | .i1 => p.cI1

/-- `ctrl_decode(b)` (spec/30_encoding.md R106): table lookup by the whole byte. -/
def ctrlDecode (p : Params) (b : Byte) : Option FrameKind :=
  allKinds.find? fun k => ctrl p k == b

/-- The supervisory kind of a frame kind, none for I0 and I1: `is_info(k)` of R103 is `sup? = none`. -/
def FrameKind.sup? (k : FrameKind) : Option SupKind :=
  match k with
  | .set => some .set
  | .ua => some .ua
  | .disc => some .disc
  | .rr0 => some .rr0
  | .rr1 => some .rr1
  | .rej0 => some .rej0
  | .rej1 => some .rej1
  | .i0 => none
  | .i1 => none

/-- `is_info(k)` (R103). -/
def FrameKind.isInfo (k : FrameKind) : Bool := k.sup?.isNone

/-- The frame kind of a supervisory kind. -/
def SupKind.kind (k : SupKind) : FrameKind :=
  match k with
  | .set => .set
  | .ua => .ua
  | .disc => .disc
  | .rr0 => .rr0
  | .rr1 => .rr1
  | .rej0 => .rej0
  | .rej1 => .rej1

/-- The information kind with sequence bit `s` (R154). -/
def infoKind (s : Bit) : FrameKind := if s then .i1 else .i0

/-- `seq(k)` (R103); a free value for SET, UA and DISC, which have none. -/
def FrameKind.seq (k : FrameKind) : Bit :=
  match k with
  | .set => Config.undefinedSeq .set
  | .ua => Config.undefinedSeq .ua
  | .disc => Config.undefinedSeq .disc
  | .rr0 => false
  | .rr1 => true
  | .rej0 => false
  | .rej1 => true
  | .i0 => false
  | .i1 => true

/-! ### Constraints on the constants (spec/30_encoding.md R104) -/

/-- FLAG and ESC are not this byte. -/
def Params.plainByte (p : Params) (b : Byte) : Bool := b != p.flag && b != p.esc

/-- K1: `P_FLAG != P_ESC`. -/
def Params.k1 (p : Params) : Bool := p.flag != p.esc

/-- K2: ESC and FLAG differ from both addresses and all nine control values. -/
def Params.k2 (p : Params) : Bool :=
  p.plainByte p.aS && p.plainByte p.aR && allKinds.all fun k => p.plainByte (ctrl p k)

/-- K3: no header checksum is FLAG or ESC. -/
def Params.k3 (p : Params) : Bool :=
  allKinds.all fun k => p.plainByte (p.aS ^^^ ctrl p k) && p.plainByte (p.aR ^^^ ctrl p k)

/-- K4: the nine control values are pairwise distinct. -/
def Params.k4 (p : Params) : Bool :=
  allKinds.all fun j => allKinds.all fun k => decide (ctrl p j = ctrl p k → j = k)

/-- K5: `P_A_S != P_A_R`. -/
def Params.k5 (p : Params) : Bool := p.aS != p.aR

/-- One kind's sequence bit stands in one fixed bit position: the byte for 1 is the byte for 0 with that bit set. -/
def seqBitApart (c0 c1 : Byte) : Bool :=
  (List.range 8).any fun i => c1 == (c0 ||| (1#8 <<< i)) && !(c0.getLsbD i)

/-- K6: RR, REJ and I each encode one sequence bit in a fixed position. -/
def Params.k6 (p : Params) : Bool :=
  seqBitApart p.cRr0 p.cRr1 && seqBitApart p.cRej0 p.cRej1 && seqBitApart p.cI0 p.cI1

/-- K7: `P_FLAG` is neither escape follower. -/
def Params.k7 (p : Params) : Bool := p.flag != escFollowFlag && p.flag != escFollowEsc

/-- `P_RX_BUF_CAP >= P_MAX_PAYLOAD + 1` (spec/00_scope.md R10, spec/70_reset_and_hazards.md R467). -/
def Params.capOk (p : Params) : Bool := decide (p.maxPayload + 1 ≤ p.rxBufCap)

/-- A configuration the model may run with (R104, spec/70_reset_and_hazards.md R460): any other is refused. -/
def Params.legal (p : Params) : Bool :=
  p.k1 && p.k2 && p.k3 && p.k4 && p.k5 && p.k6 && p.k7 && p.capOk

/-! ### Checksum, stuffing and frames (spec/40_frame_codec.md) -/

/-- `xor_all(xs)` (R150): the XOR fold from 0x00, first byte first. -/
def xorAll (xs : Bytes) : Byte := xs.foldl (fun acc b => acc ^^^ b) 0#8

/-- `header(a, c)` (R151): FLAG, address, control, BCC1. -/
def header (p : Params) (a c : Byte) : Bytes := [p.flag, a, c, a ^^^ c]

/-- The stuffed form of one byte (spec/30_encoding.md R109). -/
def stuffByte (p : Params) (b : Byte) : Bytes :=
  if b = p.flag then [p.esc, escFollowFlag]
  else if b = p.esc then [p.esc, escFollowEsc]
  else [b]

/-- `stuff(xs)` (R152). -/
def stuff (p : Params) (xs : Bytes) : Bytes := xs.flatMap (stuffByte p)

/-- `destuff(ys)` (R157), none where the spec leaves it undefined: an ESC with no valid follower. -/
def destuff (p : Params) : Bytes → Option Bytes
  | [] => some []
  | b :: ys =>
    if b = p.esc then
      match ys with
      | [] => none
      | f :: zs =>
        if f = escFollowFlag then (destuff p zs).map (p.flag :: ·)
        else if f = escFollowEsc then (destuff p zs).map (p.esc :: ·)
        else none
    else (destuff p ys).map (b :: ·)

/-- `SupFrame(a, c)` (R153). -/
def supFrame (p : Params) (a c : Byte) : Bytes := header p a c ++ [p.flag]

/-- `InfoFrame(a, s, pl)` (R154). -/
def infoFrame (p : Params) (a : Byte) (s : Bit) (pl : Bytes) : Bytes :=
  header p a (ctrl p (infoKind s)) ++ stuff p (pl ++ [xorAll pl]) ++ [p.flag]

/-! ### The frame receiver (spec/41_receiver_fsm.md) -/

/-- The registers after `ParserReset()` (R241); `rx_ctrl` is kept. -/
def ParserRegs.reset (r : ParserRegs) : ParserRegs := { r with state := .start, buf := [] }

/-- `RxStore(v)` (R227): append, or signal OVERFLOW when the buffer is full. -/
def rxStore (p : Params) (v : Byte) (r : ParserRegs) : ParserRegs × Option Signal :=
  if r.buf.length = p.rxBufCap then ({ r with state := .start, buf := [] }, some .overflow)
  else ({ r with state := .reading, buf := r.buf ++ [v] }, none)

/-- The XOR checksum validator (R218): the last stored byte is the checksum, the others the payload. -/
def checkBody (s : Bit) (pl : Bytes) (chk : Byte) : Signal :=
  if xorAll pl = chk then .info s pl else .ckfail s

/-- READING (R217 to R220). -/
def rxReading (p : Params) (b : Byte) (r : ParserRegs) : ParserRegs × Option Signal :=
  if b = p.esc then ({ r with state := .escape }, none)
  else if b = p.flag then
    match r.buf.getLast? with
    | none => ({ r with state := .start }, some (.ckfail r.ctrl.seq))
    | some chk =>
      ({ r with state := .start, buf := [] }, some (checkBody r.ctrl.seq r.buf.dropLast chk))
  else rxStore p b r

/-- ESCAPE (R221, R222 first, by R223; then R225 and R226, which agree). -/
def rxEscape (p : Params) (b : Byte) (r : ParserRegs) : ParserRegs × Option Signal :=
  if b = escFollowFlag then rxStore p p.flag r
  else if b = escFollowEsc then rxStore p p.esc r
  else ({ r with state := .start, buf := [] }, some (.ckfail r.ctrl.seq))

/-- `rx_step` (R200, R228): one byte into the parser. `e` is the expected address. -/
def rxStep (p : Params) (e b : Byte) (r : ParserRegs) : ParserRegs × Option Signal :=
  match r.state with
  | .start =>
    if b = p.flag then ({ r with state := .flagSeen }, none) else ({ r with state := .start }, none)
  | .flagSeen =>
    if b = p.flag then ({ r with state := .flagSeen }, none)
    else if b = e then ({ r with state := .addrSeen }, none)
    else ({ r with state := .start }, none)
  | .addrSeen =>
    match ctrlDecode p b with
    | some k => ({ r with state := .ctrlSeen, ctrl := k }, none)
    | none =>
      if b = p.flag then ({ r with state := .flagSeen }, none) else ({ r with state := .start }, none)
  | .ctrlSeen =>
    if b = e ^^^ ctrl p r.ctrl then ({ r with state := .headerOk, buf := [] }, none)
    else if b = p.flag then ({ r with state := .flagSeen }, none)
    else ({ r with state := .start }, none)
  | .headerOk =>
    match r.ctrl.sup? with
    | some k =>
      if b = p.flag then ({ r with state := .start }, some (.sup k))
      else ({ r with state := .start }, none)
    | none => rxReading p b r
  | .reading => rxReading p b r
  | .escape => rxEscape p b r

/-- Feeds a byte string to the parser and collects the signals, one place per byte. -/
def rxFeed (p : Params) (e : Byte) : ParserRegs → Bytes → ParserRegs × List (Option Signal)
  | r, [] => (r, [])
  | r, b :: bs =>
    let (r', sig) := rxStep p e b r
    let (r'', sigs) := rxFeed p e r' bs
    (r'', sig :: sigs)

/-! ### Decoding -/

/-- The instruction of a supervisory kind. -/
def SupKind.instr (k : SupKind) : Instr :=
  match k with
  | .set => .set
  | .ua => .ua
  | .disc => .disc
  | .rr0 => .rr0
  | .rr1 => .rr1
  | .rej0 => .rej0
  | .rej1 => .rej1

/-- The instruction a signal completes: none for CKFAIL and OVERFLOW, which are no row of the opcode table. -/
def Signal.instr? (sig : Signal) : Option Instr :=
  match sig with
  | .sup k => some k.instr
  | .info s pl => some (if s then .i1 pl else .i0 pl)
  | .ckfail _ => none
  | .overflow => none

/-- Decodes the first frame of a byte string with the parser itself ("Decode is the inverse, integrated into §4.2",
spec/40_frame_codec.md), and gives the bytes after it. Total: it rejects by name. -/
def decodeFrom (p : Params) (e : Byte) : ParserRegs → Bytes → Decoded (Instr × Bytes)
  | r, [] => .reject (.noFrame r.state)
  | r, b :: bs =>
    match rxStep p e b r with
    | (r', none) => decodeFrom p e r' bs
    | (_, some (.sup k)) => .ok (k.instr, bs)
    | (_, some (.info s pl)) => .ok (if s then .i1 pl else .i0 pl, bs)
    | (_, some (.ckfail _)) => .reject .checksumFailed
    | (_, some .overflow) => .reject .bufferOverflow

/-- A parser in START; `rx_ctrl` is overwritten before it is read. -/
def ParserRegs.fresh : ParserRegs := { state := .start, ctrl := .i0, buf := [] }

/-- The role of the operand bit: SENDER=0, RECEIVER=1 (spec/30_encoding.md R121). -/
def Role.ofBit (b : Bit) : Role := if b then .receiver else .sender

/-- The operand bit of a role (R121). -/
def Role.toBit (r : Role) : Bit :=
  match r with
  | .sender => false
  | .receiver => true

/-- The command of a host word (spec/30_encoding.md R120, R121): every 2-bit value is a command. -/
def decodeHost (w : HostWord) : Instr :=
  if w.cmd = 0b00#2 then .hostOpen (Role.ofBit w.role) w.maxAttempts w.timeout w.device w.baud
  else if w.cmd = 0b01#2 then .hostSend w.payload
  else if w.cmd = 0b10#2 then .hostReceive
  else .hostClose w.collect

/-- Decodes what one port carries: exactly one frame of the address `e`, or a command word. -/
def decode (p : Params) (e : Byte) (w : PortWord) : Decoded Instr :=
  match w with
  | .host h => .ok (decodeHost h)
  | .channel bs =>
    match decodeFrom p e .fresh bs with
    | .ok (i, []) => .ok i
    | .ok (_, _ :: _) => .reject .trailingBytes
    | .reject r => .reject r

/-! ### Encoding -/

/-- The word or frame of an instruction, as the side of address `a` emits it (`Encode`, spec/40_frame_codec.md R155;
host words by spec/30_encoding.md R120, R121). -/
def encode (p : Params) (a : Byte) (i : Instr) : PortWord :=
  match i with
  | .set => .channel (supFrame p a p.cSet)
  | .ua => .channel (supFrame p a p.cUa)
  | .disc => .channel (supFrame p a p.cDisc)
  | .rr0 => .channel (supFrame p a p.cRr0)
  | .rr1 => .channel (supFrame p a p.cRr1)
  | .rej0 => .channel (supFrame p a p.cRej0)
  | .rej1 => .channel (supFrame p a p.cRej1)
  | .i0 pl => .channel (infoFrame p a false pl)
  | .i1 pl => .channel (infoFrame p a true pl)
  | .hostOpen role m t device baud =>
    .host { HostWord.bare 0b00#2 with
      role := role.toBit, maxAttempts := m, timeout := t, device := device, baud := baud }
  | .hostSend pl => .host { HostWord.bare 0b01#2 with payload := pl }
  | .hostReceive => .host (HostWord.bare 0b10#2)
  | .hostClose c => .host { HostWord.bare 0b11#2 with collect := c }

/-! ### The host's view of the opcode table -/

/-- The bytes of the frame whose control byte is `c` under the default profile, sent by the Sender, its operand
bytes zero: an information frame's region is then the one byte 0x00, the checksum of the empty payload. -/
def tableFrame (c : Byte) : Bytes :=
  let p := Params.default
  header p p.aS c ++ (if c = p.cI0 ∨ c = p.cI1 then [0x00#8] else []) ++ [p.flag]

/-- The channel port's reading of a table word: the control byte. -/
def decodeTableCtrl (w : Nat) : Option Instr :=
  if w < 256 then
    match decode Params.default Params.default.aS (.channel (tableFrame (BitVec.ofNat 8 w))) with
    | .ok i => some i
    | .reject _ => none
  else none

/-- The host port's reading of a table word: the 2-bit CMD, every operand zero. -/
def decodeTableCmd (w : Nat) : Option Instr :=
  if w < 4 then some (decodeHost (HostWord.bare (BitVec.ofNat 2 w))) else none

/-- The instruction of a table word. The table's rows belong to two ports and a word does not name its port: a word
shorter than a byte is a CMD field, and a whole byte is read as a control byte first, then as a CMD field
(DESIGN CHOICE, log entry 11). -/
def decodeTableWord (nbits w : Nat) : Option Instr :=
  if nbits < 8 then decodeTableCmd w
  else match decodeTableCtrl w with
    | some i => some i
    | none => decodeTableCmd w

end Sys2Proof
end

