-- ==== Sys2Proof/Machine/State.lean ====
section
/-! DEFINITION. The state of the core (spec/10_state.md), its outputs, the inputs its environment holds, the reasons a
step can stop, and the state after power-on. -/

namespace Sys2Proof.Machine

/-- The connection state (spec/10_state.md R34). -/
inductive Link where
  | disconnected | connecting | connected | disconnecting
deriving DecidableEq, Repr

/-- The host operation in progress and what it waits for (spec/10_state.md R35). -/
inductive Op where
  | idle
  | openTxWaitUa
  | openRxWaitSet
  | sendWaitAck
  | recvWait
  | closeTxWaitDisc
  | closeRxWaitDisc
  | closeRxWaitUa
deriving DecidableEq, Repr

/-- The result codes (spec/60_exceptions.md R400). -/
inductive Code where
  | ok
  | peerClosing
  | errInvalidPayload
  | errInvalidConfig
  | errChannel
  | errAttemptsExhausted
  | errBufferOverflow
  | errNotOpen
  | errAlreadyOpen
  | errWrongRole
deriving DecidableEq, Repr

/-- The value of a result (spec/30_encoding.md R122). -/
inductive Value where
  | unit
  | bytesSent (n : Nat)
  | payload (bs : Bytes)
  | statistics (bytes retransmissions : U32)
deriving DecidableEq, Repr

/-- One record of the output log (spec/10_state.md R44). `chanOpen` carries the two operands `ChanOpen` hands over
to the channel (spec/42_connection.md R263; log entry 7). -/
inductive Record where
  | tx (bs : Bytes)
  | resp (code : Code) (value : Value)
  | chanOpen (device baud : Bytes)
  | chanRestore
  | chanClose
deriving DecidableEq, Repr

/-- One thing the environment does next (spec/30_encoding.md R125; log entry 3). `cmd`, `rxByte` and `expire` are the
three events of the core (spec/41_receiver_fsm.md R243); `arrive` is the channel putting bytes in its receive queue
(spec/10_state.md R45). -/
inductive Input where
  /-- a host command, and the channel's answer should it ask the channel to open (R263) -/
  | cmd (w : HostWord) (chanOk : Bit)
  /-- bytes arrive in the channel's queue -/
  | arrive (bs : Bytes)
  /-- the RX step: the core reads the oldest queued byte -/
  | rxByte
  /-- the timer expires -/
  | expire
deriving DecidableEq, Repr

/-- The machine: the parameters it is built with, the registers of spec/10_state.md, its output log, and what the
environment holds (R45). -/
structure State where
  /-- the implementation parameters, never written (spec/00_scope.md R10) -/
  params : Params
  /-- `cfg_role` (R32) -/
  cfgRole : Role
  /-- `cfg_max_attempts` (R32) -/
  cfgMaxAttempts : Nat
  /-- `cfg_timeout` (R32), read by no rule -/
  cfgTimeout : Nat
  /-- the model's own field: the configuration registers hold a value (R49) -/
  cfgWritten : Bit
  /-- `link` (R34) -/
  link : Link
  /-- `op` (R35) -/
  op : Op
  /-- `ns` (R36) -/
  ns : Bit
  /-- `nr` (R37) -/
  nr : Bit
  /-- `disc_pending` (R38) -/
  discPending : Bit
  /-- `tx_count` (R39) -/
  txCount : Nat
  /-- `txbuf` (R40) -/
  txbuf : Bytes
  /-- `tx_len` (R40) -/
  txLen : Nat
  /-- `stat_bytes` (R41) -/
  statBytes : U32
  /-- `stat_retx` (R41) -/
  statRetx : U32
  /-- `rx_state`, `rx_ctrl`, `rx_buf` (R42) -/
  rx : ParserRegs
  /-- `timer_armed` (R43) -/
  timerArmed : Bit
  /-- the operand latch of `close` (spec/42_connection.md R269) -/
  collect : Bit
  /-- `out` (R44), oldest record first -/
  out : List Record
  /-- environment: the channel's answer to the `ChanOpen` of the command being taken (R263) -/
  chanOk : Bit
  /-- environment: the channel's queue of received bytes, oldest first (R45) -/
  chanRx : Bytes
  /-- environment: what happens next, oldest first -/
  inputs : List Input
deriving DecidableEq, Repr

/-- Reasons the machine stops with a fault. -/
inductive Fault where
  /-- A rule reads a configuration register before the first `open` has written it. Raised by the readers of
  Machine/Operands.lean, as spec/10_state.md R49 and spec/93_implementation_defined.md I10 ask. Safe; no reachable
  state does it. -/
  | configUnwritten
deriving DecidableEq, Repr

/-- Reasons a step has no meaning. -/
inductive Refusal where
  /-- An instruction without a meaning in this model, by its mnemonic. Raised by no arm. Safe. -/
  | notModelled (mnemonic : String)
  /-- The parameters break a constraint of spec/30_encoding.md R104 or the buffer bound of spec/00_scope.md R10
  (spec/93_implementation_defined.md I2). Raised by `step`. Safe. -/
  | illegalProfile
  /-- A host command while `op != IDLE`: not enabled (spec/41_receiver_fsm.md R242, spec/93_implementation_defined.md
  I12). Raised by the four host commands. Safe. -/
  | hostBusy
  /-- An RX step, or a parser signal, while `op == IDLE`, or an RX step with an empty queue: not enabled
  (spec/41_receiver_fsm.md R240, spec/60_exceptions.md R411). Raised by the RX step and the nine frame kinds. Safe. -/
  | rxNotEnabled
  /-- An expiry of a timer that is not armed: not enabled (spec/44_timer.md R382). Raised by the expiry event. Safe. -/
  | expireNotEnabled
deriving DecidableEq, Repr

/-- What a meaning answers. -/
abbrev Result := Host.Outcome State Fault Refusal

/-- Power-on (spec/10_state.md R49, spec/70_reset_and_hazards.md R450). The configuration registers and `rx_ctrl`,
which the spec leaves unspecified, `collect` and `chanOk` hold the values log entries 2 and 4 name. -/
def State.reset : State where
  params := Params.default
  cfgRole := .sender
  cfgMaxAttempts := 0
  cfgTimeout := 0
  cfgWritten := false
  link := .disconnected
  op := .idle
  ns := false
  nr := false
  discPending := false
  txCount := 0
  txbuf := []
  txLen := 0
  statBytes := 0
  statRetx := 0
  rx := { state := .start, ctrl := .i0, buf := [] }
  timerArmed := false
  collect := false
  out := []
  chanOk := false
  chanRx := []
  inputs := []

end Sys2Proof.Machine
end

