-- ==== Sys2Proof/Machine/Flags.lean ====
section
/-! DEFINITION. The status bits and their views: the sequence bits and the acknowledgements they select, and the
numeric encodings and the read-only STATUS and CFG views of spec/10_state.md R46, R50 and R51. -/

namespace Sys2Proof.Machine

/-- `ns <- ns XOR 1` (spec/43_arq.md R323). -/
def State.toggleNs (s : State) : State := { s with ns := !s.ns }

/-- `nr <- nr XOR 1` (spec/43_arq.md R331). -/
def State.toggleNr (s : State) : State := { s with nr := !s.nr }

/-- `disc_pending <- 1` (spec/43_arq.md R334). -/
def State.setDiscPending (s : State) : State := { s with discPending := true }

/-- `stat_bytes <- stat_bytes + n`, modulo 2^32 (spec/10_state.md R41). -/
def State.countBytes (s : State) (n : Nat) : State :=
  { s with statBytes := s.statBytes + BitVec.ofNat 32 n }

/-- The RR that asks for sequence bit `n` (spec/43_arq.md R331). -/
def rrKind (n : Bit) : FrameKind := if n then .rr1 else .rr0

/-- The REJ that carries sequence bit `n` (spec/43_arq.md R333). -/
def rejKind (n : Bit) : FrameKind := if n then .rej1 else .rej0

/-- The number of a result code (spec/60_exceptions.md R400). -/
def Code.num (c : Code) : Nat :=
  match c with
  | .ok => 0
  | .peerClosing => 1
  | .errInvalidPayload => 2
  | .errInvalidConfig => 3
  | .errChannel => 4
  | .errAttemptsExhausted => 5
  | .errBufferOverflow => 6
  | .errNotOpen => 7
  | .errAlreadyOpen => 8
  | .errWrongRole => 9

/-- STATUS[1:0] (R50). -/
def Link.code (l : Link) : BitVec 2 :=
  match l with
  | .disconnected => 0
  | .connecting => 1
  | .connected => 2
  | .disconnecting => 3

/-- STATUS[4:2] (R50). -/
def Op.code (o : Op) : BitVec 3 :=
  match o with
  | .idle => 0
  | .openTxWaitUa => 1
  | .openRxWaitSet => 2
  | .sendWaitAck => 3
  | .recvWait => 4
  | .closeTxWaitDisc => 5
  | .closeRxWaitDisc => 6
  | .closeRxWaitUa => 7

/-- STATUS[7:5] (R50). -/
def rxStateCode (r : RxState) : BitVec 3 :=
  match r with
  | .start => 0
  | .flagSeen => 1
  | .addrSeen => 2
  | .ctrlSeen => 3
  | .headerOk => 4
  | .reading => 5
  | .escape => 6

/-- STATUS[12]: `cfg_role`, a free value before the first `open` (R50). `draw` counts the reads. -/
def State.roleBit (s : State) (draw : Nat) : Bit :=
  if s.cfgWritten then s.cfgRole.toBit else Config.unwrittenRole draw

/-- The STATUS view (R50), bits [15:13] read as 0. -/
def State.status (s : State) (draw : Nat) : BitVec 16 :=
  0#3 ++ (BitVec.ofBool (s.roleBit draw) ++ (BitVec.ofBool s.timerArmed
    ++ (BitVec.ofBool s.discPending ++ (BitVec.ofBool s.nr ++ (BitVec.ofBool s.ns
      ++ (rxStateCode s.rx.state ++ (s.op.code ++ s.link.code)))))))

/-- "A write to STATUS has no effect" (R50). -/
def State.writeStatus (s : State) (_v : BitVec 16) : State := s

/-- The CFG view (R51). -/
structure CfgView where
  role : Bit
  maxAttempts : U32
  timeout : U32
deriving DecidableEq, Repr

/-- Reads the CFG view; none, the fault of R49, before the first `open` (spec/93_implementation_defined.md I10). -/
def State.cfgView (s : State) : Option CfgView :=
  if s.cfgWritten then
    some { role := s.cfgRole.toBit, maxAttempts := BitVec.ofNat 32 s.cfgMaxAttempts,
           timeout := BitVec.ofNat 32 s.cfgTimeout }
  else none

/-- The derived predicate `is_open` (R34). -/
def State.isOpen (s : State) : Bool := decide (s.link = .connected)

end Sys2Proof.Machine
end

