-- ==== Sys2Proof/Machine/Operands.lean ====
section
/-! DEFINITION. What an instruction reads: the configuration registers, the addresses of a side, the operand checks of
the host commands, the enabling conditions, and the value a `close` returns. -/

namespace Sys2Proof.Machine

/-- `own_addr` (spec/10_state.md R33): the address of every frame a side emits. -/
def ownAddr (p : Params) (role : Role) : Byte :=
  match role with
  | .sender => p.aS
  | .receiver => p.aR

/-- `peer_addr` (spec/10_state.md R33): the only address a side's parser accepts. -/
def peerAddr (p : Params) (role : Role) : Byte :=
  match role with
  | .sender => p.aR
  | .receiver => p.aS

/-- Reads `cfg_role`. Before the first `open` "a model must fault on a read" (spec/10_state.md R49;
spec/92_eei_decisions.md D39; spec/93_implementation_defined.md I10). -/
def withRole (s : State) (k : Role → Result) : Result :=
  if s.cfgWritten then k s.cfgRole else .fault .configUnwritten

/-- Reads `cfg_max_attempts`. Before the first `open` "a model must fault on a read" (spec/10_state.md R49;
spec/92_eei_decisions.md D39; spec/93_implementation_defined.md I10). -/
def withMaxAttempts (s : State) (k : Nat → Result) : Result :=
  if s.cfgWritten then k s.cfgMaxAttempts else .fault .configUnwritten

/-- A host command is enabled iff `op == IDLE` (spec/41_receiver_fsm.md R242). -/
def whenIdle (s : State) (r : Result) : Result :=
  if s.op = .idle then r else .refused .hostBusy

/-- The operand check of `open` (spec/42_connection.md R262). -/
def openConfigBad (p : Params) (maxAttempts timeout : U32) : Bool :=
  decide (maxAttempts.toNat < 1) || decide (p.maxAttemptsLimit < maxAttempts.toNat)
    || decide (timeout.toNat < 1)

/-- The operand check of `send` (spec/43_arq.md R320). -/
def sendPayloadBad (p : Params) (payload : Bytes) : Bool :=
  decide (payload.length = 0) || decide (p.maxPayload < payload.length)

/-- `close_value()` (spec/42_connection.md R279). -/
def closeValue (s : State) : Value :=
  if s.collect then .statistics s.statBytes s.statRetx else .unit

end Sys2Proof.Machine
end

