-- ==== Sys2Proof/Machine/Ops.lean ====
section
/-! DEFINITION. The named operations every meaning is built from: the output and timer primitives of
spec/00_scope.md R17 and R18, the parser reset, the first transmission and the retransmission of a timed frame, and
the one way an operation fails (spec/60_exceptions.md R401, R404). Nothing returns from a failure: the host issues its
next command (R409). -/

namespace Sys2Proof.Machine

/-! ### Output primitives (R17) -/

/-- Appends records to the output log. -/
def State.log (s : State) (rs : List Record) : State := { s with out := s.out ++ rs }

/-- `Emit(bs)`: one whole frame, one record (spec/20_memory.md R72). -/
def State.emit (s : State) (bs : Bytes) : State := s.log [.tx bs]

/-- `Respond(r)`: the result, and `op <- IDLE`. -/
def State.respond (s : State) (c : Code) (v : Value) : State :=
  { s with out := s.out ++ [.resp c v], op := .idle }

/-- `ChanOpen()`, handing over `device` and `baud` (spec/42_connection.md R263). -/
def State.askChanOpen (s : State) (device baud : Bytes) : State := s.log [.chanOpen device baud]

/-- `ChanRelease()`: `restore_original_mode()`, then `close()`. -/
def State.chanRelease (s : State) : State := s.log [.chanRestore, .chanClose]

/-! ### Timer primitives (R18, spec/44_timer.md R380, R383) -/

/-- `Arm()`. -/
def State.arm (s : State) : State := { s with timerArmed := true }

/-- `Disarm()`. -/
def State.disarm (s : State) : State := { s with timerArmed := false }

/-! ### Registers -/

/-- `ParserReset()` (spec/41_receiver_fsm.md R241). -/
def State.parserReset (s : State) : State := { s with rx := s.rx.reset }

/-- `op <- o`. -/
def State.setOp (s : State) (o : Op) : State := { s with op := o }

/-- `link <- l`. -/
def State.setLink (s : State) (l : Link) : State := { s with link := l }

/-- `tx_len <- n`. -/
def State.setTxLen (s : State) (n : Nat) : State := { s with txLen := n }

/-- `collect <- collect_statistics; link <- DISCONNECTING` (spec/42_connection.md R269). -/
def State.latchClose (s : State) (c : Bit) : State := { s with collect := c, link := .disconnecting }

/-- The session reset of `open` (spec/42_connection.md R264). -/
def State.createSession (s : State) (role : Role) (maxAttempts timeout : U32) : State :=
  { s with
    cfgRole := role, cfgMaxAttempts := maxAttempts.toNat, cfgTimeout := timeout.toNat, cfgWritten := true,
    ns := false, nr := false, discPending := false,
    txCount := 0, txbuf := [], txLen := 0,
    statBytes := 0, statRetx := 0,
    link := .connecting }

/-- The first transmission of a timed frame: keep it in `txbuf`, emit it, count one, arm the timer
(spec/42_connection.md R265, R270, R275; spec/43_arq.md R321). -/
def State.transmitFirst (s : State) (bs : Bytes) : State :=
  State.arm { s with out := s.out ++ [.tx bs], txbuf := bs, txCount := 1 }

/-- A retransmission: emit `txbuf` unchanged, count it twice over, arm the timer afresh (spec/44_timer.md R381). -/
def State.retransmit (s : State) : State :=
  State.arm { s with
    out := s.out ++ [.tx s.txbuf], txCount := s.txCount + 1, statRetx := s.statRetx + 1 }

/-! ### Taking an input -/

/-- The first input is taken off the list. -/
def State.pop (s : State) (rest : List Input) : State := { s with inputs := rest }

/-- A command is taken; the channel's answer to its `ChanOpen`, should it ask, comes with it. -/
def State.takeCommand (s : State) (rest : List Input) (ok : Bit) : State := { s with inputs := rest, chanOk := ok }

/-- Bytes arrive in the channel's queue. -/
def State.takeArrival (s : State) (rest : List Input) (bs : Bytes) : State :=
  { s with inputs := rest, chanRx := s.chanRx ++ bs }

/-- The parser has taken a byte with the registers `r` after it, the rest of the queue being `q`. -/
def State.afterByte (s : State) (r : ParserRegs) (q : Bytes) : State := { s with rx := r, chanRx := q }

/-! ### Failing -/

/-- `Cleanup(op)` (spec/60_exceptions.md R404): a failed `open` or `close` releases the channel. -/
def State.cleanup (s : State) : State :=
  match s.op with
  | .idle => s
  | .openTxWaitUa => s.chanRelease.setLink .disconnected
  | .openRxWaitSet => s.chanRelease.setLink .disconnected
  | .sendWaitAck => s
  | .recvWait => s
  | .closeTxWaitDisc => s.chanRelease.setLink .disconnected
  | .closeRxWaitDisc => s.chanRelease.setLink .disconnected
  | .closeRxWaitUa => s.chanRelease.setLink .disconnected

/-- `raise E` (spec/60_exceptions.md R401): the one way an operation in progress fails. -/
def State.raiseErr (s : State) (e : Code) : State := s.disarm.cleanup.respond e .unit

/-- Retransmit while attempts are left, else fail the operation (spec/44_timer.md R381, spec/43_arq.md R324,
spec/42_connection.md R278). -/
def retransmitOrFail (s : State) : Result :=
  withMaxAttempts s fun m =>
    if s.txCount < m then .next s.retransmit else .next (s.raiseErr .errAttemptsExhausted)

end Sys2Proof.Machine
end

