-- ==== Sys2Proof/Machine/Arq.lean ====
section
/-! DEFINITION. Reliable transfer (spec/43_arq.md): SEND, RECEIVE, and the frames RR, REJ and I. A frame kind means the
column of its signal in the matrix of spec/60_exceptions.md R412. -/

namespace Sys2Proof.Machine

/-! ### SEND and RECEIVE -/

/-- SEND (R320, R321). -/
def execHostSend (payload : Bytes) (s : State) : Result :=
  whenIdle s
    (if s.link ≠ .connected then .next (s.respond .errNotOpen .unit)
     else withRole s fun role =>
       if role ≠ .sender then .next (s.respond .errWrongRole .unit)
       else if sendPayloadBad s.params payload then .next (s.respond .errInvalidPayload .unit)
       else .next (((s.parserReset.setTxLen payload.length).transmitFirst
         (infoFrame s.params s.params.aS s.ns payload)).setOp .sendWaitAck))

/-- RECEIVE (R330). -/
def execHostReceive (s : State) : Result :=
  whenIdle s
    (if s.link ≠ .connected then .next (s.respond .errNotOpen .unit)
     else withRole s fun role =>
       if role ≠ .receiver then .next (s.respond .errWrongRole .unit)
       else if s.discPending then .next (s.respond .peerClosing .unit)
       else .next (s.parserReset.setOp .recvWait))

/-! ### RR and REJ -/

/-- The column SUP(RRm) of R412: in `SEND_WAIT_ACK` the acknowledgement with `m == ns XOR 1` completes the send
(R322, R323) and the one with `m == ns` is ignored (R325); ignored in every other wait. -/
def ackReceived (m : Bit) (s : State) : Result :=
  match s.op with
  | .idle => .refused .rxNotEnabled
  | .sendWaitAck =>
    if m = !s.ns then
      .next ((s.disarm.toggleNs.countBytes s.txLen).respond .ok (.bytesSent s.txLen))
    else .next s
  | .openTxWaitUa => .next s
  | .openRxWaitSet => .next s
  | .recvWait => .next s
  | .closeTxWaitDisc => .next s
  | .closeRxWaitDisc => .next s
  | .closeRxWaitUa => .next s

/-- The column SUP(REJm) of R412: in `SEND_WAIT_ACK` a REJ of either bit retransmits or fails (R324). -/
def rejReceived (s : State) : Result :=
  match s.op with
  | .idle => .refused .rxNotEnabled
  | .sendWaitAck => retransmitOrFail s
  | .openTxWaitUa => .next s
  | .openRxWaitSet => .next s
  | .recvWait => .next s
  | .closeTxWaitDisc => .next s
  | .closeRxWaitDisc => .next s
  | .closeRxWaitUa => .next s

/-- RR0. -/
def execRr0 (s : State) : Result := ackReceived false s

/-- RR1. -/
def execRr1 (s : State) : Result := ackReceived true s

/-- REJ0. "The sequence bit carried by the REJ is not checked" (R324). -/
def execRej0 (s : State) : Result := rejReceived s

/-- REJ1. -/
def execRej1 (s : State) : Result := rejReceived s

/-! ### I -/

/-- A supervisory frame of the Receiver (spec/30_encoding.md R111). -/
def State.emitReply (s : State) (k : FrameKind) : State :=
  s.emit (supFrame s.params s.params.aR (ctrl s.params k))

/-- A new frame is acknowledged with the toggled bit and delivered (R331). -/
def State.deliver (s : State) (pl : Bytes) : State :=
  ((s.toggleNr.emitReply (rrKind (!s.nr))).countBytes pl.length).respond .ok (.payload pl)

/-- The column INFO(s, pl) of R412: in `RECV_WAIT` a new frame is delivered (R331) and a duplicate is acknowledged
again and dropped (R332). -/
def infoReceived (q : Bit) (pl : Bytes) (s : State) : Result :=
  match s.op with
  | .idle => .refused .rxNotEnabled
  | .recvWait => if q = s.nr then .next (s.deliver pl) else .next (s.emitReply (rrKind s.nr))
  | .openTxWaitUa => .next s
  | .openRxWaitSet => .next s
  | .sendWaitAck => .next s
  | .closeTxWaitDisc => .next s
  | .closeRxWaitDisc => .next s
  | .closeRxWaitUa => .next s

/-- I0. -/
def execI0 (pl : Bytes) (s : State) : Result := infoReceived false pl s

/-- I1. -/
def execI1 (pl : Bytes) (s : State) : Result := infoReceived true pl s

end Sys2Proof.Machine
end

