-- ==== Sys2Proof/Machine/Connection.lean ====
section
/-! DEFINITION. Connection lifecycle (spec/42_connection.md): OPEN, CLOSE, and the frames SET, UA and DISC. A frame kind
means the column of its signal in the matrix of spec/60_exceptions.md R412. -/

namespace Sys2Proof.Machine

/-! ### OPEN -/

/-- The first thing a new session does (R265 for the Sender, R266 for the Receiver). -/
def State.startSession (s : State) (role : Role) : State :=
  match role with
  | .sender =>
    (s.parserReset.transmitFirst (supFrame s.params s.params.aS s.params.cSet)).setOp .openTxWaitUa
  | .receiver => s.parserReset.setOp .openRxWaitSet

/-- OPEN (R261 to R266), its checks in the order of spec/60_exceptions.md R407. -/
def execHostOpen (role : Role) (maxAttempts timeout : U32) (device baud : Bytes) (s : State) : Result :=
  whenIdle s
    (if s.link ≠ .disconnected then .next (s.respond .errAlreadyOpen .unit)
     else if openConfigBad s.params maxAttempts timeout then .next (s.respond .errInvalidConfig .unit)
     else if s.chanOk then
       .next (((s.askChanOpen device baud).createSession role maxAttempts timeout).startSession role)
     else .next ((s.askChanOpen device baud).respond .errChannel .unit))

/-! ### CLOSE -/

/-- The Receiver's DISC reply (R275). -/
def State.replyDisc (s : State) : State :=
  (s.transmitFirst (supFrame s.params s.params.aR s.params.cDisc)).setOp .closeRxWaitUa

/-- The first thing a `close` does, by role (R270, R274). -/
def State.startClose (s : State) (role : Role) : State :=
  match role with
  | .sender =>
    (s.parserReset.transmitFirst (supFrame s.params s.params.aS s.params.cDisc)).setOp .closeTxWaitDisc
  | .receiver =>
    if s.discPending then s.parserReset.replyDisc else s.parserReset.setOp .closeRxWaitDisc

/-- CLOSE (R269, R270, R274). -/
def execHostClose (collect : Bit) (s : State) : Result :=
  whenIdle s
    (if s.link ≠ .connected then .next (s.respond .errNotOpen .unit)
     else withRole s fun role =>
       .next ((s.latchClose collect).startClose role))

/-- The end of a successful `close` after its last frame (R271, R277): release the channel, report. -/
def State.finishClose (s : State) : State :=
  (s.chanRelease.setLink .disconnected).respond .ok (closeValue s)

/-! ### Frames -/

/-- SET, the column SUP(SET) of R412: R268 in `OPEN_RX_WAIT_SET`, ignored in every other wait. -/
def execSet (s : State) : Result :=
  match s.op with
  | .idle => .refused .rxNotEnabled
  | .openRxWaitSet =>
    .next (((s.emit (supFrame s.params s.params.aR s.params.cUa)).setLink .connected).respond .ok .unit)
  | .openTxWaitUa => .next s
  | .sendWaitAck => .next s
  | .recvWait => .next s
  | .closeTxWaitDisc => .next s
  | .closeRxWaitDisc => .next s
  | .closeRxWaitUa => .next s

/-- UA, the column SUP(UA) of R412: R267 in `OPEN_TX_WAIT_UA`, R277 in `CLOSE_RX_WAIT_UA`, else ignored. -/
def execUa (s : State) : Result :=
  match s.op with
  | .idle => .refused .rxNotEnabled
  | .openTxWaitUa => .next ((s.disarm.setLink .connected).respond .ok .unit)
  | .closeRxWaitUa => .next s.disarm.finishClose
  | .openRxWaitSet => .next s
  | .sendWaitAck => .next s
  | .recvWait => .next s
  | .closeTxWaitDisc => .next s
  | .closeRxWaitDisc => .next s

/-- DISC, the column SUP(DISC) of R412: R271, R276, R278, and R334 in `RECV_WAIT`, else ignored. -/
def execDisc (s : State) : Result :=
  match s.op with
  | .idle => .refused .rxNotEnabled
  | .recvWait => .next (s.setDiscPending.respond .peerClosing .unit)
  | .closeTxWaitDisc =>
    .next (s.disarm.emit (supFrame s.params s.params.aS s.params.cUa)).finishClose
  | .closeRxWaitDisc => .next s.replyDisc
  | .closeRxWaitUa => retransmitOrFail s
  | .openTxWaitUa => .next s
  | .openRxWaitSet => .next s
  | .sendWaitAck => .next s

end Sys2Proof.Machine
end

