-- ==== Sys2Proof/Machine/Dispatch.lean ====
section
/-! DEFINITION. The dispatch: one arm per constructor of Instr, one direct call of its meaning. -/

namespace Sys2Proof.Machine

def exec (i : Instr) (s : State) : Host.Outcome State Fault Refusal :=
  match i with
  | .set => Sys2Proof.Machine.execSet s
  | .ua => Sys2Proof.Machine.execUa s
  | .disc => Sys2Proof.Machine.execDisc s
  | .rr0 => Sys2Proof.Machine.execRr0 s
  | .rr1 => Sys2Proof.Machine.execRr1 s
  | .rej0 => Sys2Proof.Machine.execRej0 s
  | .rej1 => Sys2Proof.Machine.execRej1 s
  | .i0 pl => Sys2Proof.Machine.execI0 pl s
  | .i1 pl => Sys2Proof.Machine.execI1 pl s
  | .hostOpen role m t device baud => Sys2Proof.Machine.execHostOpen role m t device baud s
  | .hostSend pl => Sys2Proof.Machine.execHostSend pl s
  | .hostReceive => Sys2Proof.Machine.execHostReceive s
  | .hostClose collect => Sys2Proof.Machine.execHostClose collect s

end Sys2Proof.Machine
end

