-- ==== Sys2Proof/Machine/Receiver.lean ====
section
/-! DEFINITION. The RX step (spec/41_receiver_fsm.md R240), and the two signals that are no instruction: CKFAIL and
OVERFLOW (spec/60_exceptions.md R412). -/

namespace Sys2Proof.Machine

/-- The column CKFAIL of R412: in `RECV_WAIT` the Receiver answers REJ(nr) (spec/43_arq.md R333), else ignored. -/
def ckfailReceived (s : State) : Result :=
  match s.op with
  | .idle => .refused .rxNotEnabled
  | .recvWait => .next (s.emit (supFrame s.params s.params.aR (ctrl s.params (rejKind s.nr))))
  | .openTxWaitUa => .next s
  | .openRxWaitSet => .next s
  | .sendWaitAck => .next s
  | .closeTxWaitDisc => .next s
  | .closeRxWaitDisc => .next s
  | .closeRxWaitUa => .next s

/-- The column OVERFLOW of R412: every wait fails (spec/60_exceptions.md R403). -/
def overflowReceived (s : State) : Result :=
  if s.op = .idle then .refused .rxNotEnabled else .next (s.raiseErr .errBufferOverflow)

/-- `Handle(op, sig)` (R412). `run` is the dispatch of the instructions. -/
def handleSignal (run : Instr → State → Result) (sig : Signal) (s : State) : Result :=
  match sig with
  | .sup k => run k.instr s
  | .info q pl => run (if q then .i1 pl else .i0 pl) s
  | .ckfail _ => ckfailReceived s
  | .overflow => overflowReceived s

/-- The RX step (R240): take the oldest queued byte, run the parser, handle its signal if it gives one. -/
def execRxByte (run : Instr → State → Result) (s : State) : Result :=
  if s.op = .idle then .refused .rxNotEnabled
  else match s.chanRx with
  | [] => .refused .rxNotEnabled
  | b :: q => withRole s fun role =>
    match rxStep s.params (peerAddr s.params role) b s.rx with
    | (r, none) => .next (s.afterByte r q)
    | (r, some sig) => handleSignal run sig (s.afterByte r q)

end Sys2Proof.Machine
end

