-- ==== Sys2Proof/Machine/Timer.lean ====
section
/-! DEFINITION. The retransmission timer's expiry (spec/44_timer.md R381, R382). -/

namespace Sys2Proof.Machine

/-- `Expire` (R381), enabled iff the timer is armed (R382): the notification is consumed, then the frame is
retransmitted or the operation fails. -/
def execExpire (s : State) : Result :=
  if s.timerArmed then retransmitOrFail s.disarm else .refused .expireNotEnabled

end Sys2Proof.Machine
end

