-- ==== Sys2Proof/Machine/Step.lean ====
section
/-! DEFINITION. One step of the machine: the environment's next input is taken (spec/41_receiver_fsm.md R243). -/

namespace Sys2Proof.Machine

/-- One step. A machine whose parameters are not legal is refused (spec/30_encoding.md R104). With no input nothing
happens and "all state persists" (spec/60_exceptions.md R443; log entry 3). -/
def step (s : State) : Host.Outcome State Fault Refusal :=
  if s.params.legal then
    match s.inputs with
    | [] => .next s
    | .cmd w ok :: rest => exec (decodeHost w) (s.takeCommand rest ok)
    | .arrive bs :: rest => .next (s.takeArrival rest bs)
    | .rxByte :: rest => execRxByte exec (s.pop rest)
    | .expire :: rest => execExpire (s.pop rest)
  else .refused .illegalProfile

/-- The wait in which a frame kind acts, and the link and role of that wait (spec/10_state.md R35). -/
def actingWait (k : FrameKind) : Op × Link × Role :=
  match k with
  | .set => (.openRxWaitSet, .connecting, .receiver)
  | .ua => (.openTxWaitUa, .connecting, .sender)
  | .disc => (.closeTxWaitDisc, .disconnecting, .sender)
  | .rr0 => (.sendWaitAck, .connected, .sender)
  | .rr1 => (.sendWaitAck, .connected, .sender)
  | .rej0 => (.sendWaitAck, .connected, .sender)
  | .rej1 => (.sendWaitAck, .connected, .sender)
  | .i0 => (.recvWait, .connected, .receiver)
  | .i1 => (.recvWait, .connected, .receiver)

/-- An RX step is enabled only in a wait, and needs a written configuration: an idle core is put in the wait in which
the kind acts, a configuration that was never written gets its least legal values (R32). -/
def State.waitingFor (s : State) (k : FrameKind) : State :=
  let s := if s.cfgWritten then s else { s with cfgWritten := true, cfgMaxAttempts := 1, cfgTimeout := 1 }
  if s.op = .idle then
    let (o, l, role) := actingWait k
    { s with op := o, link := l, cfgRole := role }
  else s

/-- A complete frame of kind `k` but for its closing FLAG is in the parser, and that FLAG is next in the queue. An
information frame's operand bytes are zero: its region is the one byte 0x00. -/
def State.withFrame (s : State) (k : FrameKind) : State :=
  let s := s.waitingFor k
  { s with
    rx := { state := if k.isInfo then .reading else .headerOk, ctrl := k,
            buf := if k.isInfo then [0x00#8] else [] }
    chanRx := s.params.flag :: s.chanRx
    inputs := .rxByte :: s.inputs }

/-- A command of the given code, all operands zero, is the host's next move, and the core is idle to take it. -/
def State.withCommand (s : State) (cmd : BitVec 2) : State :=
  { s with op := .idle, inputs := .cmd (HostWord.bare cmd) s.chanOk :: s.inputs }

/-- The kind of a frame instruction, or the code of a host command. -/
def Instr.fetchSource (i : Instr) : FrameKind ⊕ BitVec 2 :=
  match i with
  | .set => .inl .set
  | .ua => .inl .ua
  | .disc => .inl .disc
  | .rr0 => .inl .rr0
  | .rr1 => .inl .rr1
  | .rej0 => .inl .rej0
  | .rej1 => .inl .rej1
  | .i0 _ => .inl .i0
  | .i1 _ => .inl .i1
  | .hostOpen _ _ _ _ _ => .inr 0b00
  | .hostSend _ => .inr 0b01
  | .hostReceive => .inr 0b10
  | .hostClose _ => .inr 0b11

/-- The state whose very next step runs the instruction of a table word (log entries 10 and 11). -/
def State.withFetchWord (s : State) (nbits w : Nat) : State :=
  match decodeTableWord nbits w with
  | none => s
  | some i =>
    match Instr.fetchSource i with
    | .inl k => s.withFrame k
    | .inr c => s.withCommand c

end Sys2Proof.Machine
end

