-- ==== Sys2Proof/Safety.lean ====
section
/-! DEFINITION. What claims about the core are written in: the invariant of reachable states, what the next step takes,
and what a run has put out (spec/10_state.md R35, R43, R44, R47; spec/70_reset_and_hazards.md R453). -/

namespace Sys2Proof.Machine

/-! ### The invariant -/

/-- The four timed waits (spec/44_timer.md). -/
def Op.timed (o : Op) : Bool :=
  match o with
  | .idle => false
  | .openTxWaitUa => true
  | .openRxWaitSet => false
  | .sendWaitAck => true
  | .recvWait => false
  | .closeTxWaitDisc => true
  | .closeRxWaitDisc => false
  | .closeRxWaitUa => true

/-- The `link` of a wait (R35); an idle core is not between two links, since only an operation in progress is. -/
def Op.linkOk (o : Op) (l : Link) : Prop :=
  match o with
  | .idle => l = .disconnected ∨ l = .connected
  | .openTxWaitUa => l = .connecting
  | .openRxWaitSet => l = .connecting
  | .sendWaitAck => l = .connected
  | .recvWait => l = .connected
  | .closeTxWaitDisc => l = .disconnecting
  | .closeRxWaitDisc => l = .disconnecting
  | .closeRxWaitUa => l = .disconnecting

/-- The role of a wait (R35). -/
def Op.roleOk (o : Op) (r : Role) : Prop :=
  match o with
  | .idle => True
  | .openTxWaitUa => r = .sender
  | .openRxWaitSet => r = .receiver
  | .sendWaitAck => r = .sender
  | .recvWait => r = .receiver
  | .closeTxWaitDisc => r = .sender
  | .closeRxWaitDisc => r = .receiver
  | .closeRxWaitUa => r = .receiver

/-- The parser is inside the body of an information frame. -/
def inBody (st : RxState) : Bool :=
  match st with
  | .start => false
  | .flagSeen => false
  | .addrSeen => false
  | .ctrlSeen => false
  | .headerOk => false
  | .reading => true
  | .escape => true

/-- The parser's registers between two bytes: the buffer is bounded (R42), it is empty outside a body
(spec/41_receiver_fsm.md R229), and a body belongs to an information frame (R225). -/
structure ParserOk (p : Params) (r : ParserRegs) : Prop where
  bounded : r.buf.length ≤ p.rxBufCap
  emptyOutside : inBody r.state = false → r.buf = []
  infoInside : inBody r.state = true → r.ctrl.isInfo = true

/-- The frame `txbuf` holds in a timed wait (spec/44_timer.md R381, its table). -/
def State.timedFrameOk (s : State) : Prop :=
  match s.op with
  | .idle => True
  | .openTxWaitUa => s.txbuf = supFrame s.params s.params.aS s.params.cSet
  | .openRxWaitSet => True
  | .sendWaitAck => ∃ pl : Bytes, 1 ≤ pl.length ∧ pl.length ≤ s.params.maxPayload ∧ s.txLen = pl.length ∧
      s.txbuf = infoFrame s.params s.params.aS s.ns pl
  | .recvWait => True
  | .closeTxWaitDisc => s.txbuf = supFrame s.params s.params.aS s.params.cDisc
  | .closeRxWaitDisc => True
  | .closeRxWaitUa => s.txbuf = supFrame s.params s.params.aR s.params.cDisc

/-- What holds of every reachable state: R47 (a) to (e), R43, R39, R32, R40 and the parser's part of R229. It is
stronger than R47 where R47 is not preserved by itself. -/
structure State.Inv (s : State) : Prop where
  legal : s.params.legal = true
  link : s.op.linkOk s.link
  role : s.op.roleOk s.cfgRole
  written : s.link ≠ .disconnected → s.cfgWritten = true
  config : s.cfgWritten = true →
    1 ≤ s.cfgMaxAttempts ∧ s.cfgMaxAttempts ≤ s.params.maxAttemptsLimit ∧ 1 ≤ s.cfgTimeout
  armed : s.timerArmed = s.op.timed
  attempts : s.txCount ≤ s.cfgMaxAttempts
  counted : s.op.timed = true → 1 ≤ s.txCount
  closing : s.discPending = true → s.cfgRole = .receiver
  parser : ParserOk s.params s.rx
  frame : s.timedFrameOk
  capacity : s.txbuf.length ≤ 2 * s.params.maxPayload + 7

/-! ### What the next step takes -/

/-- The signal the parser gives in the next step, if that step is an enabled RX step. -/
def State.nextSignal (s : State) : Option Signal :=
  match s.inputs, s.chanRx with
  | .rxByte :: _, b :: _ =>
    if s.op = .idle then none else (rxStep s.params (peerAddr s.params s.cfgRole) b s.rx).2
  | _, _ => none

/-- The host command the next step takes. -/
def State.nextCommand (s : State) : Option Instr :=
  match s.inputs with
  | .cmd w _ :: _ => some (decodeHost w)
  | _ => none

/-- The command is an `open`. -/
def isOpenCommand (i : Instr) : Bool :=
  match i with
  | .hostOpen _ _ _ _ _ => true
  | .set | .ua | .disc | .rr0 | .rr1 | .rej0 | .rej1 | .i0 _ | .i1 _ => false
  | .hostSend _ | .hostReceive | .hostClose _ => false

/-! ### What a run puts out -/

/-- A run is complete when every command has its result (spec/70_reset_and_hazards.md R453). -/
def State.runComplete (s : State) : Bool := decide (s.op = .idle)

/-- A result record. -/
def Record.isResp (r : Record) : Bool :=
  match r with
  | .resp _ _ => true
  | .tx _ | .chanOpen _ _ | .chanRestore | .chanClose => false

/-- How many results some records hold. -/
def respCount (rs : List Record) : Nat := rs.countP Record.isResp

/-- The bytes of one record on the channel. -/
def Record.bytes (r : Record) : Bytes :=
  match r with
  | .tx bs => bs
  | .resp _ _ | .chanOpen _ _ | .chanRestore | .chanClose => []

/-- The byte stream the core writes to the channel: all TX records in order (R44). -/
def txStream (rs : List Record) : Bytes := rs.flatMap Record.bytes

/-- The moves of `link` (spec/42_connection.md R260), staying put among them. -/
def linkMove (l l' : Link) : Prop :=
  l' = l ∨ (l = .disconnected ∧ l' = .connecting) ∨ (l = .connecting ∧ l' = .connected) ∨
    (l = .connected ∧ l' = .disconnecting) ∨ (l = .disconnecting ∧ l' = .disconnected) ∨
    (l = .connecting ∧ l' = .disconnected)

/-- The records `Cleanup(op)` puts out (spec/60_exceptions.md R404). -/
def cleanupRecords (o : Op) : List Record :=
  match o with
  | .idle | .sendWaitAck | .recvWait => []
  | .openTxWaitUa | .openRxWaitSet => [.chanRestore, .chanClose]
  | .closeTxWaitDisc | .closeRxWaitDisc | .closeRxWaitUa => [.chanRestore, .chanClose]

/-- The `link` after `Cleanup(op)` (R404). -/
def cleanupLink (o : Op) (l : Link) : Link :=
  match o with
  | .idle | .sendWaitAck | .recvWait => l
  | .openTxWaitUa | .openRxWaitSet => .disconnected
  | .closeTxWaitDisc | .closeRxWaitDisc | .closeRxWaitUa => .disconnected

/-- The bytes of a frame instruction sent from the address `a`; none for a host command. -/
def frameBytes (p : Params) (a : Byte) (i : Instr) : Option Bytes :=
  match encode p a i with
  | .channel bs => some bs
  | .host _ => none

/-- The kind of a frame instruction, none for a host command. -/
def frameKind? (i : Instr) : Option FrameKind :=
  match i with
  | .set => some .set
  | .ua => some .ua
  | .disc => some .disc
  | .rr0 => some .rr0
  | .rr1 => some .rr1
  | .rej0 => some .rej0
  | .rej1 => some .rej1
  | .i0 _ => some .i0
  | .i1 _ => some .i1
  | .hostOpen _ _ _ _ _ => none
  | .hostSend _ => none
  | .hostReceive => none
  | .hostClose _ => none

end Sys2Proof.Machine
end

