-- ==== Sys2Proof/Certificates/Slice0/Obligations.lean ====
section
/-! DEFINITION. The statements for the provers, in the order of the spec's files. Each names the rule it formalises; a
statement about a state says everything the instruction writes as one record update, so that every other field, the
output log's earlier records included, is stated to be unchanged. -/

open Sys2Proof Sys2Proof.Machine

/-! ### Parameters and encoding (spec/00_scope.md, spec/30_encoding.md, spec/40_frame_codec.md) -/

/-- K1 to K7 of R104 and the buffer bound of R10 and R467: a profile is accepted iff it meets them all, and `step`
refuses a profile that is not accepted. That the one check covers the bound too is the model's choice (log entry 1). -/
def Obligations.LegalProfileMeetsConstraints : Prop :=
  (∀ p : Params, p.legal = true ↔
    p.flag ≠ p.esc ∧
    (∀ b : Byte, b = p.flag ∨ b = p.esc → b ≠ p.aS ∧ b ≠ p.aR ∧ ∀ k : FrameKind, b ≠ ctrl p k) ∧
    (∀ (a : Byte) (k : FrameKind), a = p.aS ∨ a = p.aR → a ^^^ ctrl p k ≠ p.flag ∧ a ^^^ ctrl p k ≠ p.esc) ∧
    (∀ j k : FrameKind, ctrl p j = ctrl p k → j = k) ∧
    p.aS ≠ p.aR ∧
    (∃ i, i < 8 ∧ p.cRr1 = p.cRr0 ||| (1#8 <<< i) ∧ p.cRr0.getLsbD i = false) ∧
    (∃ i, i < 8 ∧ p.cRej1 = p.cRej0 ||| (1#8 <<< i) ∧ p.cRej0.getLsbD i = false) ∧
    (∃ i, i < 8 ∧ p.cI1 = p.cI0 ||| (1#8 <<< i) ∧ p.cI0.getLsbD i = false) ∧
    p.flag ≠ 0x5E#8 ∧ p.flag ≠ 0x5D#8 ∧
    p.maxPayload + 1 ≤ p.rxBufCap) ∧
  ∀ s : State, s.params.legal = false → step s = .refused .illegalProfile

/-- R103, R106: the nine kinds and the byte, the class and the sequence bit of each; the control decoder is the inverse
of `ctrl` under every legal profile and selects by the whole byte; a received frame's kind is the decoded one, and the
sequence bit its signal carries is that kind's. (Nothing is said of the sequence bit of SET, UA, DISC, which is
undefined.) -/
def Obligations.ControlDecodeInvertsControl : Prop :=
  (∀ p : Params,
    ctrl p .set = p.cSet ∧ ctrl p .ua = p.cUa ∧ ctrl p .disc = p.cDisc ∧ ctrl p .rr0 = p.cRr0 ∧
    ctrl p .rr1 = p.cRr1 ∧ ctrl p .rej0 = p.cRej0 ∧ ctrl p .rej1 = p.cRej1 ∧ ctrl p .i0 = p.cI0 ∧
    ctrl p .i1 = p.cI1) ∧
  (∀ k : FrameKind, k ∈ [FrameKind.set, .ua, .disc, .rr0, .rr1, .rej0, .rej1, .i0, .i1]) ∧
  (∀ k : FrameKind, k.isInfo = true ↔ k = .i0 ∨ k = .i1) ∧
  (FrameKind.rr0.seq = false ∧ FrameKind.rr1.seq = true ∧ FrameKind.rej0.seq = false ∧
    FrameKind.rej1.seq = true ∧ FrameKind.i0.seq = false ∧ FrameKind.i1.seq = true) ∧
  (∀ p : Params, p.legal = true →
    (∀ (b : Byte) (k : FrameKind), ctrlDecode p b = some k ↔ ctrl p k = b) ∧
    (∀ b : Byte, ctrlDecode p b = none ↔ ∀ k : FrameKind, ctrl p k ≠ b)) ∧
  ∀ (p : Params) (e b : Byte) (r : ParserRegs),
    (∀ k, r.state = .addrSeen → ctrlDecode p b = some k → (rxStep p e b r).1.ctrl = k) ∧
    (r.state ≠ .addrSeen → (rxStep p e b r).1.ctrl = r.ctrl) ∧
    (∀ k : SupKind, (rxStep p e b r).2 = some (.sup k) → k.kind = r.ctrl) ∧
    (∀ q pl, (rxStep p e b r).2 = some (.info q pl) → q = r.ctrl.seq) ∧
    (∀ q, (rxStep p e b r).2 = some (.ckfail q) → q = r.ctrl.seq)

/-- R103, R105, R120: every row of the opcode table, as its word is written out there, decodes to its instruction: the
control bytes read as bytes of the channel, the 2-bit codes read as CMD. Then whole words of 95_test_vectors.md V2: two
supervisory frames, an information frame with and without an escape, and a control byte of no kind. -/
def Obligations.TableWordsDecode : Prop :=
  decodeTableWord 8 0x03 = some .set ∧ decodeTableWord 8 0x07 = some .ua ∧
  decodeTableWord 8 0x0B = some .disc ∧ decodeTableWord 8 0x05 = some .rr0 ∧
  decodeTableWord 8 0x85 = some .rr1 ∧ decodeTableWord 8 0x01 = some .rej0 ∧
  decodeTableWord 8 0x81 = some .rej1 ∧ decodeTableWord 8 0x00 = some (.i0 []) ∧
  decodeTableWord 8 0x40 = some (.i1 []) ∧ decodeTableWord 8 0x45 = none ∧
  decodeTableWord 2 0b00 = some (.hostOpen .sender 0 0 [] []) ∧
  decodeTableWord 2 0b01 = some (.hostSend []) ∧
  decodeTableWord 2 0b10 = some .hostReceive ∧ decodeTableWord 2 0b11 = some (.hostClose false) ∧
  decode Params.default 0x03#8 (.channel [0x7E, 0x03, 0x03, 0x00, 0x7E]) = .ok .set ∧
  decode Params.default 0x01#8 (.channel [0x7E, 0x01, 0x85, 0x84, 0x7E]) = .ok .rr1 ∧
  decode Params.default 0x03#8
    (.channel [0x7E, 0x03, 0x00, 0x03, 0x68, 0x65, 0x6C, 0x6C, 0x6F, 0x62, 0x7E])
      = .ok (.i0 [0x68, 0x65, 0x6C, 0x6C, 0x6F]) ∧
  decode Params.default 0x03#8 (.channel [0x7E, 0x03, 0x40, 0x43, 0x7D, 0x5E, 0x7D, 0x5E, 0x7E])
      = .ok (.i1 [0x7E]) ∧
  decode Params.default 0x03#8 (.channel [0x7E, 0x03, 0x45, 0x46, 0x7E]) = .reject (.noFrame .flagSeen)

/-- Every well-formed instruction decodes from its encoding, with every operand at every value, under every legal
profile and from either side. -/
def Obligations.DecodeOfEncode : Prop :=
  ∀ (p : Params) (a : Byte) (i : Instr), p.legal = true → a = p.aS ∨ a = p.aR → i.wf p = true →
    decode p a (encode p a i) = .ok i

/-- R101, R102, R151, R153, R154: the layouts of the two frame formats. -/
def Obligations.FrameLayouts : Prop :=
  (∀ (p : Params) (a c : Byte), supFrame p a c = [p.flag, a, c, a ^^^ c, p.flag]) ∧
  (∀ (p : Params) (a : Byte) (pl : Bytes),
    infoFrame p a false pl = p.flag :: a :: p.cI0 :: (a ^^^ p.cI0) :: (stuff p (pl ++ [xorAll pl]) ++ [p.flag]) ∧
    infoFrame p a true pl = p.flag :: a :: p.cI1 :: (a ^^^ p.cI1) :: (stuff p (pl ++ [xorAll pl]) ++ [p.flag]))

/-- R150: the checksum of no byte is 0, one more byte is XOR-ed in, a byte repeated an even number of times cancels,
and the order of the bytes does not matter. -/
def Obligations.ChecksumLaws : Prop :=
  xorAll [] = 0x00#8 ∧
  xorAll [0x68, 0x65, 0x6C, 0x6C, 0x6F] = 0x62#8 ∧
  (∀ (xs : Bytes) (b : Byte), xorAll (xs ++ [b]) = xorAll xs ^^^ b) ∧
  (∀ (xs : Bytes) (b : Byte), xorAll (xs ++ [b, b]) = xorAll xs) ∧
  (∀ xs ys : Bytes, xs.Perm ys → xorAll xs = xorAll ys)

/-- R159, first two sentences: a region whose XOR is 0 has a non-zero XOR once exactly one bit is flipped. -/
def Obligations.ChecksumSeesSingleBit : Prop :=
  ∀ (xs ys : Bytes) (b : Byte) (i : Nat), i < 8 → xorAll (xs ++ [b] ++ ys) = 0x00#8 →
    xorAll (xs ++ [b ^^^ (1#8 <<< i)] ++ ys) ≠ 0x00#8

/-- R156: stuffing adds one byte for each FLAG and ESC, and the region of an information frame is longer by as many
bytes as its payload and checksum hold of them. -/
def Obligations.StuffingLength : Prop :=
  (∀ (p : Params) (xs : Bytes),
    (stuff p xs).length = xs.length + xs.countP (fun b => b == p.flag || b == p.esc)) ∧
  (∀ (p : Params) (pl : Bytes),
    (stuff p (pl ++ [xorAll pl])).length
      = pl.length + 1 + (pl ++ [xorAll pl]).countP (fun b => b == p.flag || b == p.esc))

/-- R157: `destuff` reads an escape pair as the byte it stands for and any other byte as itself, is undefined on a
dangling or invalid escape, and is the left inverse of `stuff`. -/
def Obligations.DestuffInvertsStuff : Prop :=
  ∀ p : Params, p.legal = true →
    (∀ xs : Bytes, destuff p (stuff p xs) = some xs) ∧
    (∀ ys : Bytes, destuff p (p.esc :: 0x5E#8 :: ys) = (destuff p ys).map (p.flag :: ·)) ∧
    (∀ ys : Bytes, destuff p (p.esc :: 0x5D#8 :: ys) = (destuff p ys).map (p.esc :: ·)) ∧
    (∀ (b : Byte) (ys : Bytes), b ≠ p.esc → destuff p (b :: ys) = (destuff p ys).map (b :: ·)) ∧
    (∀ (f : Byte) (ys : Bytes), f ≠ 0x5E#8 → f ≠ 0x5D#8 → destuff p (p.esc :: f :: ys) = none) ∧
    destuff p [p.esc] = none

/-- R158: a frame holds FLAG as its first and last byte and nowhere else. -/
def Obligations.NoUnescapedFlag : Prop :=
  ∀ (p : Params) (a : Byte), p.legal = true → a = p.aS ∨ a = p.aR →
    (∀ (q : Bit) (pl : Bytes), ∃ body : Bytes,
      infoFrame p a q pl = p.flag :: (body ++ [p.flag]) ∧ p.flag ∉ body) ∧
    (∀ k : SupKind, ∃ body : Bytes,
      supFrame p a (ctrl p k.kind) = p.flag :: (body ++ [p.flag]) ∧ body.length = 3 ∧ p.flag ∉ body)

/-- R11: the lengths of the two formats, and the bound on a frame that `send` accepts: `4 + 2*(P_MAX_PAYLOAD + 1) + 1`
bytes. -/
def Obligations.FrameLengths : Prop :=
  ∀ (p : Params) (a : Byte),
    (∀ c : Byte, (supFrame p a c).length = 5) ∧
    (∀ (q : Bit) (pl : Bytes),
      (infoFrame p a q pl).length
        = 4 + (pl.length + 1 + (pl ++ [xorAll pl]).countP (fun b => b == p.flag || b == p.esc)) + 1) ∧
    (∀ (q : Bit) (pl : Bytes), pl.length ≤ p.maxPayload →
      (infoFrame p a q pl).length ≤ 4 + 2 * (p.maxPayload + 1) + 1)

/-! ### The frame receiver (spec/41_receiver_fsm.md) -/

/-- R228: the complete transition table, line by line; "else" is every byte not listed on an earlier line. -/
def Obligations.ParserTransitionTable : Prop :=
  ∀ (p : Params) (e b : Byte) (r : ParserRegs),
    (r.state = .start →
      (b = p.flag → rxStep p e b r = ({ r with state := .flagSeen }, none)) ∧
      (b ≠ p.flag → rxStep p e b r = ({ r with state := .start }, none))) ∧
    (r.state = .flagSeen →
      (b = p.flag → rxStep p e b r = ({ r with state := .flagSeen }, none)) ∧
      (b ≠ p.flag → b = e → rxStep p e b r = ({ r with state := .addrSeen }, none)) ∧
      (b ≠ p.flag → b ≠ e → rxStep p e b r = ({ r with state := .start }, none))) ∧
    (r.state = .addrSeen →
      (∀ k, ctrlDecode p b = some k → rxStep p e b r = ({ r with state := .ctrlSeen, ctrl := k }, none)) ∧
      (ctrlDecode p b = none → b = p.flag → rxStep p e b r = ({ r with state := .flagSeen }, none)) ∧
      (ctrlDecode p b = none → b ≠ p.flag → rxStep p e b r = ({ r with state := .start }, none))) ∧
    (r.state = .ctrlSeen →
      (b = e ^^^ ctrl p r.ctrl → rxStep p e b r = ({ r with state := .headerOk, buf := [] }, none)) ∧
      (b ≠ e ^^^ ctrl p r.ctrl → b = p.flag → rxStep p e b r = ({ r with state := .flagSeen }, none)) ∧
      (b ≠ e ^^^ ctrl p r.ctrl → b ≠ p.flag → rxStep p e b r = ({ r with state := .start }, none))) ∧
    (r.state = .headerOk → ∀ k : SupKind, r.ctrl = k.kind →
      (b = p.flag → rxStep p e b r = ({ r with state := .start }, some (.sup k))) ∧
      (b ≠ p.flag → rxStep p e b r = ({ r with state := .start }, none))) ∧
    (r.state = .headerOk → r.ctrl.isInfo = true →
      rxStep p e b r = rxStep p e b { r with state := .reading }) ∧
    (r.state = .reading →
      (b = p.esc → rxStep p e b r = ({ r with state := .escape }, none)) ∧
      (b ≠ p.esc → b = p.flag → ∀ (pl : Bytes) (chk : Byte), r.buf = pl ++ [chk] →
        rxStep p e b r = ({ r with state := .start, buf := [] },
          some (if xorAll pl = chk then .info r.ctrl.seq pl else .ckfail r.ctrl.seq))) ∧
      (b ≠ p.esc → b = p.flag → r.buf = [] →
        rxStep p e b r = ({ r with state := .start }, some (.ckfail r.ctrl.seq))) ∧
      (b ≠ p.esc → b ≠ p.flag → r.buf.length ≠ p.rxBufCap →
        rxStep p e b r = ({ r with buf := r.buf ++ [b] }, none)) ∧
      (b ≠ p.esc → b ≠ p.flag → r.buf.length = p.rxBufCap →
        rxStep p e b r = ({ r with state := .start, buf := [] }, some .overflow))) ∧
    (r.state = .escape →
      (b = 0x5E#8 → r.buf.length ≠ p.rxBufCap →
        rxStep p e b r = ({ r with state := .reading, buf := r.buf ++ [p.flag] }, none)) ∧
      (b = 0x5D#8 → r.buf.length ≠ p.rxBufCap →
        rxStep p e b r = ({ r with state := .reading, buf := r.buf ++ [p.esc] }, none)) ∧
      (b = 0x5E#8 ∨ b = 0x5D#8 → r.buf.length = p.rxBufCap →
        rxStep p e b r = ({ r with state := .start, buf := [] }, some .overflow)) ∧
      (b ≠ 0x5E#8 → b ≠ 0x5D#8 →
        rxStep p e b r = ({ r with state := .start, buf := [] }, some (.ckfail r.ctrl.seq))))

/-- R229 (c) and (d): the parser keeps its invariant, the bound of the buffer in it, and after any signal it rests in
START with an empty buffer. -/
def Obligations.ParserKeepsInvariant : Prop :=
  ∀ (p : Params) (e b : Byte) (r : ParserRegs), p.legal = true → ParserOk p r →
    ParserOk p (rxStep p e b r).1 ∧
    ((rxStep p e b r).2 ≠ none → (rxStep p e b r).1.state = .start ∧ (rxStep p e b r).1.buf = [])

/-- R160: fed to a parser in START, a frame gives its signal on its last byte and none before, and leaves START. -/
def Obligations.FrameParsesToItsSignal : Prop :=
  ∀ (p : Params) (e : Byte) (r : ParserRegs), p.legal = true → e = p.aS ∨ e = p.aR → r.state = .start →
    (∀ (q : Bit) (pl : Bytes), pl.length + 1 ≤ p.rxBufCap →
      rxFeed p e r (infoFrame p e q pl)
        = ({ state := .start, ctrl := infoKind q, buf := [] },
           List.replicate ((infoFrame p e q pl).length - 1) none ++ [some (.info q pl)])) ∧
    (∀ k : SupKind,
      rxFeed p e r (supFrame p e (ctrl p k.kind))
        = ({ state := .start, ctrl := k.kind, buf := [] }, [none, none, none, none, some (.sup k)]))

/-- R338 (a) to (c): one flipped bit of an unstuffed checksum byte makes the frame signal CKFAIL exactly once and
nothing else. The premise that FLAG has not exactly one bit set is what R338 (b) uses ("the original BCC2 is one bit
away from FLAG and so is not 0"). -/
def Obligations.FlippedChecksumSignalsFailure : Prop :=
  ∀ (p : Params) (e : Byte) (r : ParserRegs) (q : Bit) (pl : Bytes) (i : Nat),
    p.legal = true → e = p.aS ∨ e = p.aR → r.state = .start → (∀ j, j < 8 → p.flag ≠ 1#8 <<< j) →
    pl.length + 1 ≤ p.rxBufCap → xorAll pl ≠ p.flag → xorAll pl ≠ p.esc → i < 8 →
    (rxFeed p e r (header p e (ctrl p (infoKind q)) ++ stuff p pl
        ++ [xorAll pl ^^^ (1#8 <<< i)] ++ [p.flag])).2.filterMap id = [.ckfail q]

/-! ### Reset and views (spec/10_state.md R49 to R51, spec/70_reset_and_hazards.md R450) -/

/-- R49: the power-on values the spec states; a configuration register has no readable value before the first
`open`. -/
def Obligations.PowerOnState : Prop :=
  State.reset.link = .disconnected ∧ State.reset.op = .idle ∧
  State.reset.ns = false ∧ State.reset.nr = false ∧ State.reset.discPending = false ∧
  State.reset.txCount = 0 ∧ State.reset.txbuf = [] ∧ State.reset.txLen = 0 ∧
  State.reset.statBytes = 0 ∧ State.reset.statRetx = 0 ∧
  State.reset.rx.state = .start ∧ State.reset.rx.buf = [] ∧
  State.reset.timerArmed = false ∧ State.reset.out = [] ∧
  State.reset.cfgView = none ∧
  (∀ k, withRole State.reset k = .fault .configUnwritten) ∧
  (∀ k, withMaxAttempts State.reset k = .fault .configUnwritten)

/-- R50: the encodings of the fields of STATUS, their places, the reserved bits 0, and a write without effect. Bit 12
is stated once the configuration is written; before that the spec leaves it unspecified and nothing is stated. -/
def Obligations.StatusViewFields : Prop :=
  ([Link.disconnected, .connecting, .connected, .disconnecting].map Link.code = [0, 1, 2, 3]) ∧
  ([Op.idle, .openTxWaitUa, .openRxWaitSet, .sendWaitAck, .recvWait, .closeTxWaitDisc, .closeRxWaitDisc,
    .closeRxWaitUa].map Op.code = [0, 1, 2, 3, 4, 5, 6, 7]) ∧
  ([RxState.start, .flagSeen, .addrSeen, .ctrlSeen, .headerOk, .reading, .escape].map rxStateCode
    = [0, 1, 2, 3, 4, 5, 6]) ∧ (∀ r : RxState, rxStateCode r ≠ 7) ∧
  (Role.sender.toBit = false ∧ Role.receiver.toBit = true) ∧
  ∀ (s : State) (draw : Nat),
    (s.status draw).extractLsb' 0 2 = s.link.code ∧
    (s.status draw).extractLsb' 2 3 = s.op.code ∧
    (s.status draw).extractLsb' 5 3 = rxStateCode s.rx.state ∧
    (s.status draw).getLsbD 8 = s.ns ∧
    (s.status draw).getLsbD 9 = s.nr ∧
    (s.status draw).getLsbD 10 = s.discPending ∧
    (s.status draw).getLsbD 11 = s.timerArmed ∧
    (s.cfgWritten = true → (s.status draw).getLsbD 12 = s.cfgRole.toBit) ∧
    (s.status draw).extractLsb' 13 3 = 0#3 ∧
    ∀ v, s.writeStatus v = s

/-- 93_implementation_defined.md I10 with R49 ("a model must fault on a read before then"): every rule that reads a
configuration register before the first `open` faults, the RX step of a wait (which reads `cfg_role` for `peer_addr`)
among them, and the CFG view has no value. (No reachable state is CONNECTED, armed or in a wait then; the invariant says
so.) -/
def Obligations.UnwrittenConfigFaults : Prop :=
  ∀ s : State, s.cfgWritten = false →
    (s.op = .idle → s.link = .connected →
      (∀ pl, exec (.hostSend pl) s = .fault .configUnwritten) ∧
      exec .hostReceive s = .fault .configUnwritten ∧
      (∀ c, exec (.hostClose c) s = .fault .configUnwritten)) ∧
    (s.op = .sendWaitAck → exec .rej0 s = .fault .configUnwritten ∧ exec .rej1 s = .fault .configUnwritten) ∧
    (s.op = .closeRxWaitUa → exec .disc s = .fault .configUnwritten) ∧
    (s.timerArmed = true → execExpire s = .fault .configUnwritten) ∧
    (∀ rest, s.params.legal = true → s.inputs = .rxByte :: rest → s.op ≠ .idle → s.chanRx ≠ [] →
      step s = .fault .configUnwritten) ∧
    s.cfgView = none

/-! ### Connection lifecycle (spec/42_connection.md) -/

/-- R242: no command is enabled while an operation is in progress. -/
def Obligations.CommandsWaitForIdle : Prop :=
  ∀ s : State, s.op ≠ .idle →
    (∀ role m t dev baud, exec (.hostOpen role m t dev baud) s = .refused .hostBusy) ∧
    (∀ pl, exec (.hostSend pl) s = .refused .hostBusy) ∧
    exec .hostReceive s = .refused .hostBusy ∧
    (∀ c, exec (.hostClose c) s = .refused .hostBusy)

/-- R261, R262, R263, R407: the three ways `open` fails at the command, in order, and their whole effect. -/
def Obligations.OpenChecksInOrder : Prop :=
  ∀ (s : State) (role : Role) (m t : U32) (dev baud : Bytes), s.op = .idle →
    (s.link ≠ .disconnected →
      exec (.hostOpen role m t dev baud) s = .next { s with out := s.out ++ [.resp .errAlreadyOpen .unit] }) ∧
    (s.link = .disconnected → m.toNat < 1 ∨ s.params.maxAttemptsLimit < m.toNat ∨ t.toNat < 1 →
      exec (.hostOpen role m t dev baud) s = .next { s with out := s.out ++ [.resp .errInvalidConfig .unit] }) ∧
    (s.link = .disconnected → 1 ≤ m.toNat → m.toNat ≤ s.params.maxAttemptsLimit → 1 ≤ t.toNat →
      s.chanOk = false →
      exec (.hostOpen role m t dev baud) s
        = .next { s with out := s.out ++ [.chanOpen dev baud, .resp .errChannel .unit] })

/-- R264, R265, R266: a successful `open` writes the configuration, resets the session, and begins the wait of its
role; the Sender sends SET and arms the timer. -/
def Obligations.OpenCreatesSession : Prop :=
  ∀ (s : State) (m t : U32) (dev baud : Bytes), s.op = .idle → s.link = .disconnected →
    1 ≤ m.toNat → m.toNat ≤ s.params.maxAttemptsLimit → 1 ≤ t.toNat → s.chanOk = true →
    exec (.hostOpen .sender m t dev baud) s = .next { s with
      cfgRole := .sender, cfgMaxAttempts := m.toNat, cfgTimeout := t.toNat, cfgWritten := true,
      ns := false, nr := false, discPending := false,
      txCount := 1, txbuf := supFrame s.params s.params.aS s.params.cSet, txLen := 0,
      statBytes := 0, statRetx := 0, link := .connecting, op := .openTxWaitUa, timerArmed := true,
      rx := { s.rx with state := .start, buf := [] },
      out := s.out ++ [.chanOpen dev baud, .tx (supFrame s.params s.params.aS s.params.cSet)] } ∧
    exec (.hostOpen .receiver m t dev baud) s = .next { s with
      cfgRole := .receiver, cfgMaxAttempts := m.toNat, cfgTimeout := t.toNat, cfgWritten := true,
      ns := false, nr := false, discPending := false,
      txCount := 0, txbuf := [], txLen := 0,
      statBytes := 0, statRetx := 0, link := .connecting, op := .openRxWaitSet,
      rx := { s.rx with state := .start, buf := [] },
      out := s.out ++ [.chanOpen dev baud] }

/-- R268, and the rest of the column SUP(SET) of R412. -/
def Obligations.SetFrameMeaning : Prop :=
  ∀ s : State,
    (s.op = .openRxWaitSet → exec .set s = .next { s with
      link := .connected, op := .idle,
      out := s.out ++ [.tx (supFrame s.params s.params.aR s.params.cUa), .resp .ok .unit] }) ∧
    (s.op ≠ .idle → s.op ≠ .openRxWaitSet → exec .set s = .next s) ∧
    (s.op = .idle → exec .set s = .refused .rxNotEnabled)

/-- R267, R277 with R279, and the rest of the column SUP(UA) of R412. -/
def Obligations.UaFrameMeaning : Prop :=
  ∀ s : State,
    (s.op = .openTxWaitUa → exec .ua s = .next { s with
      timerArmed := false, link := .connected, op := .idle, out := s.out ++ [.resp .ok .unit] }) ∧
    (s.op = .closeRxWaitUa → exec .ua s = .next { s with
      timerArmed := false, link := .disconnected, op := .idle,
      out := s.out ++ [.chanRestore, .chanClose,
        .resp .ok (if s.collect then .statistics s.statBytes s.statRetx else .unit)] }) ∧
    (s.op ≠ .idle → s.op ≠ .openTxWaitUa → s.op ≠ .closeRxWaitUa → exec .ua s = .next s) ∧
    (s.op = .idle → exec .ua s = .refused .rxNotEnabled)

/-- R271 with R279, R276 with R275, R278, R334, and the rest of the column SUP(DISC) of R412. -/
def Obligations.DiscFrameMeaning : Prop :=
  ∀ s : State,
    (s.op = .recvWait → exec .disc s = .next { s with
      discPending := true, op := .idle, out := s.out ++ [.resp .peerClosing .unit] }) ∧
    (s.op = .closeTxWaitDisc → exec .disc s = .next { s with
      timerArmed := false, link := .disconnected, op := .idle,
      out := s.out ++ [.tx (supFrame s.params s.params.aS s.params.cUa), .chanRestore, .chanClose,
        .resp .ok (if s.collect then .statistics s.statBytes s.statRetx else .unit)] }) ∧
    (s.op = .closeRxWaitDisc → exec .disc s = .next { s with
      txbuf := supFrame s.params s.params.aR s.params.cDisc, txCount := 1, timerArmed := true,
      op := .closeRxWaitUa, out := s.out ++ [.tx (supFrame s.params s.params.aR s.params.cDisc)] }) ∧
    (s.op = .closeRxWaitUa → s.cfgWritten = true → s.txCount < s.cfgMaxAttempts →
      exec .disc s = .next { s with
        txCount := s.txCount + 1, statRetx := s.statRetx + 1, timerArmed := true,
        out := s.out ++ [.tx s.txbuf] }) ∧
    (s.op = .closeRxWaitUa → s.cfgWritten = true → s.cfgMaxAttempts ≤ s.txCount →
      exec .disc s = .next { s with
        timerArmed := false, link := .disconnected, op := .idle,
        out := s.out ++ [.chanRestore, .chanClose, .resp .errAttemptsExhausted .unit] }) ∧
    (s.op = .openTxWaitUa ∨ s.op = .openRxWaitSet ∨ s.op = .sendWaitAck → exec .disc s = .next s) ∧
    (s.op = .idle → exec .disc s = .refused .rxNotEnabled)

/-- R269, R270, R274, R275: `close` by link and role. -/
def Obligations.CloseCommandMeaning : Prop :=
  ∀ (s : State) (c : Bit), s.op = .idle →
    (s.link ≠ .connected →
      exec (.hostClose c) s = .next { s with out := s.out ++ [.resp .errNotOpen .unit] }) ∧
    (s.link = .connected → s.cfgWritten = true → s.cfgRole = .sender →
      exec (.hostClose c) s = .next { s with
        collect := c, link := .disconnecting, rx := { s.rx with state := .start, buf := [] },
        txbuf := supFrame s.params s.params.aS s.params.cDisc, txCount := 1, timerArmed := true,
        op := .closeTxWaitDisc, out := s.out ++ [.tx (supFrame s.params s.params.aS s.params.cDisc)] }) ∧
    (s.link = .connected → s.cfgWritten = true → s.cfgRole = .receiver → s.discPending = true →
      exec (.hostClose c) s = .next { s with
        collect := c, link := .disconnecting, rx := { s.rx with state := .start, buf := [] },
        txbuf := supFrame s.params s.params.aR s.params.cDisc, txCount := 1, timerArmed := true,
        op := .closeRxWaitUa, out := s.out ++ [.tx (supFrame s.params s.params.aR s.params.cDisc)] }) ∧
    (s.link = .connected → s.cfgWritten = true → s.cfgRole = .receiver → s.discPending = false →
      exec (.hostClose c) s = .next { s with
        collect := c, link := .disconnecting, rx := { s.rx with state := .start, buf := [] },
        op := .closeRxWaitDisc })

/-! ### Reliable transfer (spec/43_arq.md) -/

/-- R320: the three ways `send` fails at the command, in order, and their whole effect. -/
def Obligations.SendChecksInOrder : Prop :=
  ∀ (s : State) (pl : Bytes), s.op = .idle →
    (s.link ≠ .connected →
      exec (.hostSend pl) s = .next { s with out := s.out ++ [.resp .errNotOpen .unit] }) ∧
    (s.link = .connected → s.cfgWritten = true → s.cfgRole ≠ .sender →
      exec (.hostSend pl) s = .next { s with out := s.out ++ [.resp .errWrongRole .unit] }) ∧
    (s.link = .connected → s.cfgWritten = true → s.cfgRole = .sender →
      pl.length = 0 ∨ s.params.maxPayload < pl.length →
      exec (.hostSend pl) s = .next { s with out := s.out ++ [.resp .errInvalidPayload .unit] })

/-- R321: the first transmission of a `send`. -/
def Obligations.SendTransmitsFrame : Prop :=
  ∀ (s : State) (pl : Bytes), s.op = .idle → s.link = .connected → s.cfgWritten = true → s.cfgRole = .sender →
    1 ≤ pl.length → pl.length ≤ s.params.maxPayload →
    exec (.hostSend pl) s = .next { s with
      rx := { s.rx with state := .start, buf := [] }, txLen := pl.length,
      txbuf := infoFrame s.params s.params.aS s.ns pl, txCount := 1, timerArmed := true,
      op := .sendWaitAck, out := s.out ++ [.tx (infoFrame s.params s.params.aS s.ns pl)] }

/-- R322, R323, R325, and the rest of the columns SUP(RRm) of R412: RR(ns XOR 1) completes the send, RR(ns) is
ignored. -/
def Obligations.ReceiverReadyMeaning : Prop :=
  ∀ (s : State) (m : Bit), 
    (s.op = .sendWaitAck → m = !s.ns →
      exec (if m then .rr1 else .rr0) s = .next { s with
        timerArmed := false, ns := !s.ns, statBytes := s.statBytes + BitVec.ofNat 32 s.txLen, op := .idle,
        out := s.out ++ [.resp .ok (.bytesSent s.txLen)] }) ∧
    (s.op = .sendWaitAck → m = s.ns → exec (if m then .rr1 else .rr0) s = .next s) ∧
    (s.op ≠ .idle → s.op ≠ .sendWaitAck → exec (if m then .rr1 else .rr0) s = .next s) ∧
    (s.op = .idle → exec (if m then .rr1 else .rr0) s = .refused .rxNotEnabled)

/-- R324, and the rest of the columns SUP(REJm) of R412: a REJ of either bit retransmits or fails; `ns` is kept. -/
def Obligations.RejectMeaning : Prop :=
  ∀ (s : State) (i : Instr), i = .rej0 ∨ i = .rej1 →
    (s.op = .sendWaitAck → s.cfgWritten = true → s.txCount < s.cfgMaxAttempts →
      exec i s = .next { s with
        txCount := s.txCount + 1, statRetx := s.statRetx + 1, timerArmed := true,
        out := s.out ++ [.tx s.txbuf] }) ∧
    (s.op = .sendWaitAck → s.cfgWritten = true → s.cfgMaxAttempts ≤ s.txCount →
      exec i s = .next { s with
        timerArmed := false, op := .idle, out := s.out ++ [.resp .errAttemptsExhausted .unit] }) ∧
    (s.op ≠ .idle → s.op ≠ .sendWaitAck → exec i s = .next s) ∧
    (s.op = .idle → exec i s = .refused .rxNotEnabled)

/-- R330: `receive` fails, reports the closing peer, or waits. -/
def Obligations.ReceiveCommandMeaning : Prop :=
  ∀ s : State, s.op = .idle →
    (s.link ≠ .connected →
      exec .hostReceive s = .next { s with out := s.out ++ [.resp .errNotOpen .unit] }) ∧
    (s.link = .connected → s.cfgWritten = true → s.cfgRole ≠ .receiver →
      exec .hostReceive s = .next { s with out := s.out ++ [.resp .errWrongRole .unit] }) ∧
    (s.link = .connected → s.cfgWritten = true → s.cfgRole = .receiver → s.discPending = true →
      exec .hostReceive s = .next { s with out := s.out ++ [.resp .peerClosing .unit] }) ∧
    (s.link = .connected → s.cfgWritten = true → s.cfgRole = .receiver → s.discPending = false →
      exec .hostReceive s = .next { s with rx := { s.rx with state := .start, buf := [] }, op := .recvWait })

/-- R331, R332, and the rest of the columns INFO of R412: a new frame is acknowledged with RR of the toggled bit and
delivered; a duplicate is acknowledged again and dropped. -/
def Obligations.InformationMeaning : Prop :=
  ∀ (s : State) (q : Bit) (pl : Bytes),
    (s.op = .recvWait → q = s.nr →
      exec (if q then .i1 pl else .i0 pl) s = .next { s with
        nr := !s.nr, statBytes := s.statBytes + BitVec.ofNat 32 pl.length, op := .idle,
        out := s.out ++ [.tx (supFrame s.params s.params.aR (if s.nr then s.params.cRr0 else s.params.cRr1)),
          .resp .ok (.payload pl)] }) ∧
    (s.op = .recvWait → q ≠ s.nr →
      exec (if q then .i1 pl else .i0 pl) s = .next { s with
        out := s.out ++ [.tx (supFrame s.params s.params.aR (if s.nr then s.params.cRr1 else s.params.cRr0))] }) ∧
    (s.op ≠ .idle → s.op ≠ .recvWait → exec (if q then .i1 pl else .i0 pl) s = .next s) ∧
    (s.op = .idle → exec (if q then .i1 pl else .i0 pl) s = .refused .rxNotEnabled)

/-- R333 and the rest of the column CKFAIL of R412; R403 with R401 and R404, the column OVERFLOW. -/
def Obligations.FailureSignalsMeaning : Prop :=
  ∀ (run : Instr → State → Result) (s : State) (q : Bit),
    (s.op = .recvWait → handleSignal run (.ckfail q) s = .next { s with
      out := s.out ++ [.tx (supFrame s.params s.params.aR (if s.nr then s.params.cRej1 else s.params.cRej0))] }) ∧
    (s.op ≠ .idle → s.op ≠ .recvWait → handleSignal run (.ckfail q) s = .next s) ∧
    (s.op ≠ .idle → handleSignal run .overflow s = .next { s with
      timerArmed := false, link := cleanupLink s.op s.link, op := .idle,
      out := s.out ++ cleanupRecords s.op ++ [.resp .errBufferOverflow .unit] })

/-- R337, R332: once a payload is delivered, the same frame again, in the next `receive`, is acknowledged with the same
RR, that of the toggled bit, and not delivered a second time. -/
def Obligations.DuplicateNotDeliveredTwice : Prop :=
  ∀ (s : State) (pl rr : Bytes), s.op = .recvWait → s.link = .connected → s.cfgWritten = true →
    s.cfgRole = .receiver → s.discPending = false →
    rr = supFrame s.params s.params.aR (if s.nr then s.params.cRr0 else s.params.cRr1) →
    ∃ t u v : State,
      exec (if s.nr then .i1 pl else .i0 pl) s = .next t ∧ t.out = s.out ++ [.tx rr, .resp .ok (.payload pl)] ∧
      exec .hostReceive t = .next u ∧ u.out = t.out ∧
      exec (if s.nr then .i1 pl else .i0 pl) u = .next v ∧ v.out = u.out ++ [.tx rr] ∧
      t.nr = !s.nr ∧ v.nr = t.nr ∧ v.op = .recvWait ∧ v.statBytes = t.statBytes

/-! ### Timer and failures (spec/44_timer.md, spec/60_exceptions.md) -/

/-- R381, R382: an expiry of an armed timer retransmits, counts and re-arms while attempts are left, else fails the
operation; a disarmed timer has no expiry. -/
def Obligations.ExpiryMeaning : Prop :=
  ∀ s : State,
    (s.timerArmed = true → s.cfgWritten = true → s.txCount < s.cfgMaxAttempts →
      execExpire s = .next { s with
        timerArmed := true, txCount := s.txCount + 1, statRetx := s.statRetx + 1,
        out := s.out ++ [.tx s.txbuf] }) ∧
    (s.timerArmed = true → s.cfgWritten = true → s.cfgMaxAttempts ≤ s.txCount →
      execExpire s = .next { s with
        timerArmed := false, link := cleanupLink s.op s.link, op := .idle,
        out := s.out ++ cleanupRecords s.op ++ [.resp .errAttemptsExhausted .unit] }) ∧
    (s.timerArmed = false → execExpire s = .refused .expireNotEnabled)

/-- R401, R404: what failing an operation does, wait by wait. -/
def Obligations.FailureEffect : Prop :=
  ∀ (s : State) (e : Code),
    (s.op = .sendWaitAck ∨ s.op = .recvWait →
      s.raiseErr e = { s with timerArmed := false, op := .idle, out := s.out ++ [.resp e .unit] }) ∧
    (s.op = .openTxWaitUa ∨ s.op = .openRxWaitSet ∨ s.op = .closeTxWaitDisc ∨ s.op = .closeRxWaitDisc ∨
        s.op = .closeRxWaitUa →
      s.raiseErr e = { s with
        timerArmed := false, link := .disconnected, op := .idle,
        out := s.out ++ [.chanRestore, .chanClose, .resp e .unit] })

/-- R400: the numbers of the ten result codes, and that no two codes share one. -/
def Obligations.ResultCodeNumbers : Prop :=
  [Code.ok, .peerClosing, .errInvalidPayload, .errInvalidConfig, .errChannel, .errAttemptsExhausted,
    .errBufferOverflow, .errNotOpen, .errAlreadyOpen, .errWrongRole].map Code.num
      = [0, 1, 2, 3, 4, 5, 6, 7, 8, 9] ∧
  (∀ c : Code, c.num ≤ 9) ∧ ∀ c d : Code, c.num = d.num → c = d

/-- R385, R381: with no other event, a timed wait retransmits its frame once for each attempt left and fails at the
next expiry, after exactly `cfg_max_attempts - tx_count + 1` expiries. -/
def Obligations.TimedWaitExhausts : Prop :=
  ∀ (s : State) (n : Nat) (rest : List Input), s.params.legal = true → s.cfgWritten = true →
    s.timerArmed = true → s.txCount + n = s.cfgMaxAttempts →
    s.inputs = List.replicate (n + 1) .expire ++ rest →
    core.run (n + 1) s = .next { s with
      timerArmed := false, txCount := s.cfgMaxAttempts, statRetx := s.statRetx + BitVec.ofNat 32 n,
      link := cleanupLink s.op s.link, op := .idle,
      out := s.out ++ List.replicate n (.tx s.txbuf) ++ cleanupRecords s.op
        ++ [.resp .errAttemptsExhausted .unit],
      inputs := rest }

/-- R328: over a channel that delivers nothing, `send` emits the identical frame exactly M times and fails at the M-th
expiry; `ns` and the link are kept. -/
def Obligations.SendFailsAfterExactlyM : Prop :=
  ∀ (s : State) (w : HostWord) (ok : Bit) (rest : List Input), s.params.legal = true →
    s.op = .idle → s.link = .connected → s.cfgWritten = true → s.cfgRole = .sender → 1 ≤ s.cfgMaxAttempts →
    w.cmd = 0b01#2 → 1 ≤ w.payload.length → w.payload.length ≤ s.params.maxPayload →
    s.inputs = .cmd w ok :: (List.replicate s.cfgMaxAttempts .expire ++ rest) →
    ∃ t, core.run (s.cfgMaxAttempts + 1) s = .next t ∧
      t.out = s.out ++ List.replicate s.cfgMaxAttempts (.tx (infoFrame s.params s.params.aS s.ns w.payload))
        ++ [.resp .errAttemptsExhausted .unit] ∧
      t.op = .idle ∧ t.link = .connected ∧ t.ns = s.ns ∧ t.inputs = rest

/-! ### The step relation (spec/41_receiver_fsm.md section 4) -/

/-- R242: a pending command word is decoded and its instruction is run, with the channel's answer beside it; nothing
else happens around it. -/
def Obligations.StepRunsCommand : Prop :=
  ∀ (s : State) (w : HostWord) (ok : Bit) (rest : List Input), s.params.legal = true →
    s.inputs = .cmd w ok :: rest →
    step s = exec (decodeHost w) { s with inputs := rest, chanOk := ok } ∧
    (w.cmd = 0b00#2 → decodeHost w
      = .hostOpen (if w.role then .receiver else .sender) w.maxAttempts w.timeout w.device w.baud) ∧
    (w.cmd = 0b01#2 → decodeHost w = .hostSend w.payload) ∧
    (w.cmd = 0b10#2 → decodeHost w = .hostReceive) ∧
    (w.cmd = 0b11#2 → decodeHost w = .hostClose w.collect)

/-- R240: an RX step takes the oldest queued byte through the parser and, if the parser gives a signal, handles it; the
signal of a frame runs that frame's instruction. -/
def Obligations.StepRunsReceivedByte : Prop :=
  ∀ (s : State) (b : Byte) (q : Bytes) (rest : List Input) (r : ParserRegs) (sig : Option Signal),
    s.params.legal = true → s.inputs = .rxByte :: rest → s.op ≠ .idle → s.cfgWritten = true →
    s.chanRx = b :: q →
    rxStep s.params (if s.cfgRole = .sender then s.params.aR else s.params.aS) b s.rx = (r, sig) →
    (sig = none → step s = .next { s with rx := r, chanRx := q, inputs := rest }) ∧
    (∀ sg, sig = some sg →
      step s = handleSignal exec sg { s with rx := r, chanRx := q, inputs := rest }) ∧
    (∀ sg i, sig = some sg → sg.instr? = some i →
      step s = exec i { s with rx := r, chanRx := q, inputs := rest })

/-- R240, R382, and the environment's own moves: when no event is enabled the step says so by name, an expiry input
runs the expiry, bytes that arrive join the queue and change nothing else, and with no input nothing changes (the
model's choice, log entry 3). -/
def Obligations.StepOtherInputs : Prop :=
  ∀ (s : State) (rest : List Input), s.params.legal = true →
    (s.inputs = .rxByte :: rest → s.op = .idle ∨ s.chanRx = [] → step s = .refused .rxNotEnabled) ∧
    (s.inputs = .expire :: rest → step s = execExpire { s with inputs := rest }) ∧
    (∀ bs, s.inputs = .arrive bs :: rest →
      step s = .next { s with inputs := rest, chanRx := s.chanRx ++ bs }) ∧
    (s.inputs = [] → step s = .next s)

/-- R160 through R240: the bytes of a well-formed frame instruction from the peer, read one by one, run that
instruction and nothing else. -/
def Obligations.WholeFrameRunsInstruction : Prop :=
  ∀ (s : State) (i : Instr) (k : FrameKind) (bs q : Bytes) (rest : List Input), s.params.legal = true →
    s.op ≠ .idle → s.cfgWritten = true → s.rx.state = .start → i.wf s.params = true →
    frameKind? i = some k → frameBytes s.params (peerAddr s.params s.cfgRole) i = some bs →
    s.chanRx = bs ++ q → s.inputs = List.replicate bs.length .rxByte ++ rest →
    core.run bs.length s
      = exec i { s with rx := { state := .start, ctrl := k, buf := [] }, chanRx := q, inputs := rest }

/-! ### The whole machine -/

/-- The state after power-on meets the invariant. -/
def Obligations.PowerOnMeetsInvariant : Prop := State.reset.Inv

/-- R47, R43, R39, R32, R35: every step keeps the invariant, from every state that meets it. -/
def Obligations.StepKeepsInvariant : Prop :=
  ∀ s t : State, s.Inv → step s = .next t → t.Inv

/-- R47 (a) to (e) and R43, as the invariant gives them. -/
def Obligations.InvariantGivesReachableFacts : Prop :=
  ∀ s : State, s.Inv →
    s.op.linkOk s.link ∧
    (s.op = .idle → s.timerArmed = false) ∧
    (s.link = .disconnected → s.op = .idle) ∧
    (s.timerArmed = true → 1 ≤ s.txCount ∧ s.txCount ≤ s.cfgMaxAttempts) ∧
    (s.discPending = true → s.cfgRole = .receiver) ∧
    (s.timerArmed = true → s.op = .openTxWaitUa ∨ s.op = .sendWaitAck ∨ s.op = .closeTxWaitDisc ∨
      s.op = .closeRxWaitUa)

/-- R44, R451: a step only appends to the output log and never changes the parameters. -/
def Obligations.OutputOnlyGrows : Prop :=
  ∀ s t : State, step s = .next t → t.params = s.params ∧ ∃ rs : List Record, t.out = s.out ++ rs

/-- R32: only a successful `open` writes the configuration registers, with its own operands. -/
def Obligations.ConfigWrittenByOpenOnly : Prop :=
  ∀ s t : State, step s = .next t →
    (t.cfgRole = s.cfgRole ∧ t.cfgMaxAttempts = s.cfgMaxAttempts ∧ t.cfgTimeout = s.cfgTimeout ∧
      t.cfgWritten = s.cfgWritten) ∨
    (∃ role m tm dev baud, s.nextCommand = some (.hostOpen role m tm dev baud) ∧ s.link = .disconnected ∧
      t.link = .connecting ∧ t.cfgRole = role ∧ t.cfgMaxAttempts = m.toNat ∧ t.cfgTimeout = tm.toNat ∧
      1 ≤ m.toNat ∧ m.toNat ≤ s.params.maxAttemptsLimit ∧ 1 ≤ tm.toNat)

/-- R260: `link` moves only along the cycle, but for a failed `open`. -/
def Obligations.LinkMovesAlongCycle : Prop :=
  ∀ s t : State, s.Inv → step s = .next t → linkMove s.link t.link

/-- R36: the transmit sequence bit changes only at the acknowledgement of the frame just sent, or is set to 0 by
`open`. -/
def Obligations.TransmitBitTogglesOnAckOnly : Prop :=
  ∀ s t : State, step s = .next t → t.ns ≠ s.ns →
    ((∃ i, s.nextCommand = some i ∧ isOpenCommand i = true) ∧ t.ns = false ∧ t.link = .connecting) ∨
    (s.op = .sendWaitAck ∧ s.nextSignal = some (.sup (if s.ns then .rr0 else .rr1)) ∧ t.ns = !s.ns ∧
      t.op = .idle)

/-- R37: the receive sequence bit changes only at the delivery of a payload, or is set to 0 by `open`. -/
def Obligations.ReceiveBitTogglesOnDeliveryOnly : Prop :=
  ∀ s t : State, step s = .next t → t.nr ≠ s.nr →
    ((∃ i, s.nextCommand = some i ∧ isOpenCommand i = true) ∧ t.nr = false ∧ t.link = .connecting) ∨
    (s.op = .recvWait ∧ t.nr = !s.nr ∧ ∃ (pl rr : Bytes), s.nextSignal = some (.info s.nr pl) ∧
      t.out = s.out ++ [.tx rr, .resp .ok (.payload pl)])

/-- R38: `disc_pending` is set only by a DISC that `receive` surfaces, and cleared only by `open`. -/
def Obligations.DiscPendingWriters : Prop :=
  ∀ s t : State, step s = .next t →
    (s.discPending = false → t.discPending = true → s.op = .recvWait ∧ s.nextSignal = some (.sup .disc) ∧
      t.out = s.out ++ [.resp .peerClosing .unit]) ∧
    (s.discPending = true → t.discPending = false → ∃ i, s.nextCommand = some i ∧ isOpenCommand i = true)

/-- R400: a step gives at most one result, and gives one exactly when it ends an operation: the core is idle after it,
and before it an operation was in progress or a command was taken. -/
def Obligations.OneResultPerOperation : Prop :=
  ∀ s t : State, s.Inv → step s = .next t →
    ∃ rs : List Record, t.out = s.out ++ rs ∧ respCount rs ≤ 1 ∧
      (respCount rs = 1 ↔ t.op = .idle ∧ (s.op ≠ .idle ∨ s.nextCommand.isSome = true))

/-- R411, R243: a core that is idle and takes no command keeps every field of its own; only the channel's queue and
the environment's inputs may change. -/
def Obligations.IdleCoreKeepsState : Prop :=
  ∀ s t : State, s.Inv → s.op = .idle → s.nextCommand = none → step s = .next t →
    t = { s with chanRx := t.chanRx, inputs := t.inputs }

/-- R240, R75, R77: a step either leaves the channel's queue, or takes its oldest byte in a wait, or the channel adds
bytes at its end. -/
def Obligations.QueueIsReadInOrder : Prop :=
  ∀ s t : State, step s = .next t →
    t.chanRx = s.chanRx ∨
    (s.op ≠ .idle ∧ ∃ b, s.chanRx = b :: t.chanRx ∧ ∃ rest, s.inputs = .rxByte :: rest) ∨
    (∃ bs rest, s.inputs = .arrive bs :: rest ∧ t.chanRx = s.chanRx ++ bs)

/-- R82, R40, R47 (f): while a `send` waits, the frame kept for retransmission and its sequence bit do not change, and
the core puts out nothing but that frame. -/
def Obligations.OneFrameOutstanding : Prop :=
  ∀ s t : State, step s = .next t → s.op = .sendWaitAck → t.op = .sendWaitAck →
    t.txbuf = s.txbuf ∧ t.txLen = s.txLen ∧ t.ns = s.ns ∧ (t.out = s.out ∨ t.out = s.out ++ [.tx s.txbuf])

/-! ### Two cores over a loss-free channel -/

/-- R280, establishment: the Sender's SET reaches the Receiver, the Receiver's UA reaches the Sender, and both are
CONNECTED with sequence bits 0. -/
def Obligations.LossFreeEstablishment : Prop :=
  ∀ (a r : State) (wa wr : HostWord), a.params.legal = true → r.params = a.params →
    a.op = .idle → r.op = .idle → a.link = .disconnected → r.link = .disconnected →
    a.chanRx = [] → r.chanRx = [] →
    wa.cmd = 0b00#2 → wa.role = false → wr.cmd = 0b00#2 → wr.role = true →
    1 ≤ wa.maxAttempts.toNat → wa.maxAttempts.toNat ≤ a.params.maxAttemptsLimit → 1 ≤ wa.timeout.toNat →
    1 ≤ wr.maxAttempts.toNat → wr.maxAttempts.toNat ≤ a.params.maxAttemptsLimit → 1 ≤ wr.timeout.toNat →
    a.inputs = .cmd wa true :: .arrive (supFrame a.params a.params.aR a.params.cUa)
      :: List.replicate 5 .rxByte →
    r.inputs = .cmd wr true :: .arrive (supFrame a.params a.params.aS a.params.cSet)
      :: List.replicate 5 .rxByte →
    ∃ a' r' : State, core.run 7 a = .next a' ∧ core.run 7 r = .next r' ∧
      a'.out = a.out ++ [.chanOpen wa.device wa.baud, .tx (supFrame a.params a.params.aS a.params.cSet),
        .resp .ok .unit] ∧
      r'.out = r.out ++ [.chanOpen wr.device wr.baud, .tx (supFrame a.params a.params.aR a.params.cUa),
        .resp .ok .unit] ∧
      a'.link = .connected ∧ r'.link = .connected ∧ a'.op = .idle ∧ r'.op = .idle ∧
      a'.cfgRole = .sender ∧ r'.cfgRole = .receiver ∧ a'.ns = false ∧ r'.nr = false ∧
      a'.chanRx = [] ∧ r'.chanRx = []

/-- R329, R331, R323: one `send` and one `receive` over a loss-free, in-order channel deliver the payload, and both
sequence bits toggle. -/
def Obligations.LossFreeExchange : Prop :=
  ∀ (a r : State) (wa wr : HostWord) (oka okr : Bit) (frame ack : Bytes), a.params.legal = true →
    r.params = a.params → a.op = .idle → r.op = .idle → a.link = .connected → r.link = .connected →
    a.cfgWritten = true → r.cfgWritten = true → a.cfgRole = .sender → r.cfgRole = .receiver →
    r.discPending = false → a.ns = r.nr → a.chanRx = [] → r.chanRx = [] →
    wa.cmd = 0b01#2 → 1 ≤ wa.payload.length → wa.payload.length ≤ a.params.maxPayload → wr.cmd = 0b10#2 →
    frame = infoFrame a.params a.params.aS a.ns wa.payload →
    ack = supFrame a.params a.params.aR (if a.ns then a.params.cRr0 else a.params.cRr1) →
    a.inputs = .cmd wa oka :: .arrive ack :: List.replicate ack.length .rxByte →
    r.inputs = .cmd wr okr :: .arrive frame :: List.replicate frame.length .rxByte →
    ∃ a' r' : State, core.run (2 + ack.length) a = .next a' ∧ core.run (2 + frame.length) r = .next r' ∧
      a'.out = a.out ++ [.tx frame, .resp .ok (.bytesSent wa.payload.length)] ∧
      r'.out = r.out ++ [.tx ack, .resp .ok (.payload wa.payload)] ∧
      a'.ns = !a.ns ∧ r'.nr = !r.nr ∧ a'.ns = r'.nr ∧
      a'.link = .connected ∧ r'.link = .connected ∧ a'.op = .idle ∧ r'.op = .idle ∧
      a'.chanRx = [] ∧ r'.chanRx = []

/-- R280, teardown: DISC, DISC, UA bring both sides to DISCONNECTED with the channel released, when the Receiver's
`receive` has surfaced the Sender's DISC; each side's `close` answers the statistics iff they were asked for. -/
def Obligations.LossFreeTeardown : Prop :=
  ∀ (a r : State) (wa wr : HostWord) (oka okr : Bit), a.params.legal = true → r.params = a.params →
    a.op = .idle → r.op = .idle → a.link = .connected → r.link = .connected →
    a.cfgWritten = true → r.cfgWritten = true → a.cfgRole = .sender → r.cfgRole = .receiver →
    r.discPending = true → a.chanRx = [] → r.chanRx = [] →
    wa.cmd = 0b11#2 → wr.cmd = 0b11#2 →
    a.inputs = .cmd wa oka :: .arrive (supFrame a.params a.params.aR a.params.cDisc)
      :: List.replicate 5 .rxByte →
    r.inputs = .cmd wr okr :: .arrive (supFrame a.params a.params.aS a.params.cUa)
      :: List.replicate 5 .rxByte →
    ∃ a' r' : State, core.run 7 a = .next a' ∧ core.run 7 r = .next r' ∧
      a'.out = a.out ++ [.tx (supFrame a.params a.params.aS a.params.cDisc),
        .tx (supFrame a.params a.params.aS a.params.cUa), .chanRestore, .chanClose,
        .resp .ok (if wa.collect then .statistics a.statBytes a.statRetx else .unit)] ∧
      r'.out = r.out ++ [.tx (supFrame a.params a.params.aR a.params.cDisc), .chanRestore, .chanClose,
        .resp .ok (if wr.collect then .statistics r.statBytes r.statRetx else .unit)] ∧
      a'.link = .disconnected ∧ r'.link = .disconnected ∧ a'.op = .idle ∧ r'.op = .idle

/-! ### The CFG view (spec/10_state.md R51) and the flipped bit of a stuffed checksum (spec/43_arq.md R338) -/

/-- R51: the CFG view of a written configuration is its role bit, its attempt limit and its interval, 32 bits each; a
successful `open` makes it that `open`'s operands; no step changes it but by an `open` with legal operands; an illegal
operand is refused and nothing is written. Before the first `open` it has no value (R49). -/
def Obligations.ConfigViewFields : Prop :=
  (∀ s : State, s.cfgView = if s.cfgWritten then
    some { role := s.cfgRole.toBit, maxAttempts := BitVec.ofNat 32 s.cfgMaxAttempts,
           timeout := BitVec.ofNat 32 s.cfgTimeout } else none) ∧
  (∀ (s : State) (role : Role) (m tm : U32) (dev baud : Bytes), s.op = .idle → s.link = .disconnected →
    (1 ≤ m.toNat → m.toNat ≤ s.params.maxAttemptsLimit → 1 ≤ tm.toNat → s.chanOk = true →
      ∃ t, exec (.hostOpen role m tm dev baud) s = .next t ∧
        t.cfgView = some { role := role.toBit, maxAttempts := m, timeout := tm }) ∧
    (m.toNat < 1 ∨ s.params.maxAttemptsLimit < m.toNat ∨ tm.toNat < 1 →
      exec (.hostOpen role m tm dev baud) s
        = .next { s with out := s.out ++ [.resp .errInvalidConfig .unit] })) ∧
  ∀ s t : State, step s = .next t →
    t.cfgView = s.cfgView ∨
    (∃ role m tm dev baud, s.nextCommand = some (.hostOpen role m tm dev baud) ∧
      1 ≤ m.toNat ∧ m.toNat ≤ s.params.maxAttemptsLimit ∧ 1 ≤ tm.toNat ∧
      t.cfgView = some { role := role.toBit, maxAttempts := m, timeout := tm })

/-- R338 (d): a checksum that is FLAG or ESC stands on the wire as ESC and its follower `f`. One flipped bit of the
follower makes the frame signal CKFAIL exactly once and nothing else. So does one flipped bit of that ESC, with two
premises R338 (d) does not name: where it became FLAG, the payload's own XOR is not 0; where it is stored as a literal
and `f` after it too, the buffer has room for both and the two do not make up a valid checksum. Where the buffer has room
for the literal only, the frame overflows. -/
def Obligations.FlippedStuffedChecksumSignals : Prop :=
  ∀ (p : Params) (e f : Byte) (r : ParserRegs) (q : Bit) (pl : Bytes) (i : Nat),
    p.legal = true → e = p.aS ∨ e = p.aR → r.state = .start → pl.length + 1 ≤ p.rxBufCap → i < 8 →
    (xorAll pl = p.flag ∧ f = 0x5E#8) ∨ (xorAll pl = p.esc ∧ f = 0x5D#8) →
    (rxFeed p e r (header p e (ctrl p (infoKind q)) ++ stuff p pl
        ++ [p.esc, f ^^^ (1#8 <<< i)] ++ [p.flag])).2.filterMap id = [.ckfail q] ∧
    ((p.esc ^^^ (1#8 <<< i) = p.flag → xorAll pl ≠ 0x00#8) →
      (p.esc ^^^ (1#8 <<< i) ≠ p.flag → f ≠ p.esc →
        pl.length + 2 ≤ p.rxBufCap ∧ xorAll pl ^^^ (p.esc ^^^ (1#8 <<< i)) ≠ f) →
      (rxFeed p e r (header p e (ctrl p (infoKind q)) ++ stuff p pl
          ++ [p.esc ^^^ (1#8 <<< i), f] ++ [p.flag])).2.filterMap id = [.ckfail q]) ∧
    (p.esc ^^^ (1#8 <<< i) ≠ p.flag → f ≠ p.esc → pl.length + 1 = p.rxBufCap →
      (rxFeed p e r (header p e (ctrl p (infoKind q)) ++ stuff p pl
          ++ [p.esc ^^^ (1#8 <<< i), f] ++ [p.flag])).2.filterMap id = [.overflow])
end

