-- ==== Sys2Proof/Laws/Codec.lean ====
section
/-! SUPPORT. The codec's lemmas: what a legal profile gives, the control table, the checksum and the stuffing. -/

namespace Sys2Proof

/-! ### What a legal profile gives (spec/30_encoding.md R104) -/

theorem mem_allKinds (k : FrameKind) : k ∈ allKinds := by cases k <;> decide

section
variable {p : Params} (h : p.legal = true)
include h

theorem legal_flag_ne_esc : p.flag ≠ p.esc := by
  simp only [Params.legal, Bool.and_eq_true] at h
  simpa [Params.k1] using h.1.1.1.1.1.1.1

theorem legal_k2 : p.k2 = true := by
  simp only [Params.legal, Bool.and_eq_true] at h
  exact h.1.1.1.1.1.1.2

theorem legal_k3 : p.k3 = true := by
  simp only [Params.legal, Bool.and_eq_true] at h
  exact h.1.1.1.1.1.2

theorem legal_addr_ne_flag {a : Byte} (ha : a = p.aS ∨ a = p.aR) : a ≠ p.flag := by
  have := legal_k2 h
  simp only [Params.k2, Params.plainByte, Bool.and_eq_true, bne_iff_ne] at this
  rcases ha with rfl | rfl
  · exact this.1.1.1
  · exact this.1.2.1

theorem legal_addr_ne_esc {a : Byte} (ha : a = p.aS ∨ a = p.aR) : a ≠ p.esc := by
  have := legal_k2 h
  simp only [Params.k2, Params.plainByte, Bool.and_eq_true, bne_iff_ne] at this
  rcases ha with rfl | rfl
  · exact this.1.1.2
  · exact this.1.2.2

theorem legal_ctrl_plain (k : FrameKind) : ctrl p k ≠ p.flag ∧ ctrl p k ≠ p.esc := by
  have := legal_k2 h
  simp only [Params.k2, Params.plainByte, Bool.and_eq_true, bne_iff_ne, List.all_eq_true] at this
  exact this.2 k (mem_allKinds k)

theorem legal_bcc1_plain {a : Byte} (ha : a = p.aS ∨ a = p.aR) (k : FrameKind) :
    a ^^^ ctrl p k ≠ p.flag ∧ a ^^^ ctrl p k ≠ p.esc := by
  have := legal_k3 h
  simp only [Params.k3, Params.plainByte, Bool.and_eq_true, bne_iff_ne, List.all_eq_true] at this
  rcases ha with rfl | rfl
  · exact (this k (mem_allKinds k)).1
  · exact (this k (mem_allKinds k)).2

theorem legal_ctrl_injective {j k : FrameKind} (hjk : ctrl p j = ctrl p k) : j = k := by
  simp only [Params.legal, Bool.and_eq_true] at h
  have := h.1.1.1.1.2
  simp only [Params.k4, List.all_eq_true, decide_eq_true_eq] at this
  exact this j (mem_allKinds j) k (mem_allKinds k) hjk

theorem legal_addrs_differ : p.aS ≠ p.aR := by
  simp only [Params.legal, Bool.and_eq_true] at h
  simpa [Params.k5] using h.1.1.1.2

theorem legal_flag_no_follower : p.flag ≠ escFollowFlag ∧ p.flag ≠ escFollowEsc := by
  simp only [Params.legal, Bool.and_eq_true] at h
  simpa [Params.k7] using h.1.2

theorem legal_cap : p.maxPayload + 1 ≤ p.rxBufCap := by
  simp only [Params.legal, Bool.and_eq_true] at h
  simpa [Params.capOk] using h.2

theorem ctrlDecode_ctrl (k : FrameKind) : ctrlDecode p (ctrl p k) = some k := by
  unfold ctrlDecode
  cases hf : allKinds.find? (fun j => ctrl p j == ctrl p k) with
  | none =>
    have := List.find?_eq_none.1 hf k (mem_allKinds k)
    simp at this
  | some j =>
    have hj : (ctrl p j == ctrl p k) = true := List.find?_some (p := fun j => ctrl p j == ctrl p k) hf
    have : j = k := legal_ctrl_injective h (by simpa using hj)
    rw [this]

end

theorem ctrl_of_ctrlDecode {p : Params} {b : Byte} {k : FrameKind} (h : ctrlDecode p b = some k) :
    ctrl p k = b := by
  have : (ctrl p k == b) = true := List.find?_some (p := fun k => ctrl p k == b) h
  simpa using this

/-! ### Checksum (spec/40_frame_codec.md R150) -/

theorem foldl_xor (xs : Bytes) (a : Byte) :
    xs.foldl (fun acc b => acc ^^^ b) a = a ^^^ xs.foldl (fun acc b => acc ^^^ b) 0#8 := by
  induction xs generalizing a with
  | nil => simp
  | cons x xs ih => rw [List.foldl_cons, List.foldl_cons, ih (a ^^^ x), ih (0#8 ^^^ x)]; simp [BitVec.xor_assoc]

@[simp] theorem xorAll_nil : xorAll [] = 0#8 := rfl

@[simp] theorem xorAll_cons (b : Byte) (xs : Bytes) : xorAll (b :: xs) = b ^^^ xorAll xs := by
  unfold xorAll
  rw [List.foldl_cons, foldl_xor]
  simp

@[simp] theorem xorAll_append (xs ys : Bytes) : xorAll (xs ++ ys) = xorAll xs ^^^ xorAll ys := by
  induction xs with
  | nil => simp
  | cons x xs ih => simp [ih, BitVec.xor_assoc]

/-! ### Stuffing (R152) -/

@[simp] theorem stuff_nil (p : Params) : stuff p [] = [] := rfl

@[simp] theorem stuff_cons (p : Params) (b : Byte) (xs : Bytes) :
    stuff p (b :: xs) = stuffByte p b ++ stuff p xs := by simp [stuff]

@[simp] theorem stuff_append (p : Params) (xs ys : Bytes) :
    stuff p (xs ++ ys) = stuff p xs ++ stuff p ys := by simp [stuff]

theorem stuffByte_length_le (p : Params) (b : Byte) : (stuffByte p b).length ≤ 2 := by
  unfold stuffByte
  split <;> [skip; split] <;> simp

theorem flag_not_mem_stuffByte {p : Params} (h : p.legal = true) (b : Byte) : p.flag ∉ stuffByte p b := by
  have h1 := legal_flag_ne_esc h
  have h7 := legal_flag_no_follower h
  unfold stuffByte
  split
  · simp [h1, h7.1]
  · split
    · simp [h1, h7.2]
    · simpa using Ne.symm ‹_›

theorem flag_not_mem_stuff {p : Params} (h : p.legal = true) (xs : Bytes) : p.flag ∉ stuff p xs := by
  intro hm
  obtain ⟨b, _, hb⟩ := List.mem_flatMap.1 hm
  exact flag_not_mem_stuffByte h b hb

end Sys2Proof
end

