-- ==== Sys2Proof/Laws/State.lean ====
section
/-! SUPPORT. The named updates of State, field by field: what each writes, and in one lemma of equations all it keeps. -/

namespace Sys2Proof.Machine

variable (s : State)

/-! ### log -/

@[simp] theorem State.log_out (rs : List Record) : (s.log rs).out = s.out ++ rs := rfl

@[simp] theorem State.log_keeps (rs : List Record) :
    (s.log rs).params = s.params ∧ (s.log rs).cfgRole = s.cfgRole ∧
    (s.log rs).cfgMaxAttempts = s.cfgMaxAttempts ∧ (s.log rs).cfgTimeout = s.cfgTimeout ∧
    (s.log rs).cfgWritten = s.cfgWritten ∧ (s.log rs).link = s.link ∧ (s.log rs).op = s.op ∧
    (s.log rs).ns = s.ns ∧ (s.log rs).nr = s.nr ∧ (s.log rs).discPending = s.discPending ∧
    (s.log rs).txCount = s.txCount ∧ (s.log rs).txbuf = s.txbuf ∧ (s.log rs).txLen = s.txLen ∧
    (s.log rs).statBytes = s.statBytes ∧ (s.log rs).statRetx = s.statRetx ∧ (s.log rs).rx = s.rx ∧
    (s.log rs).timerArmed = s.timerArmed ∧ (s.log rs).collect = s.collect ∧
    (s.log rs).chanOk = s.chanOk ∧ (s.log rs).chanRx = s.chanRx ∧ (s.log rs).inputs = s.inputs := by
  refine ⟨?_, ?_, ?_, ?_, ?_, ?_, ?_, ?_, ?_, ?_, ?_, ?_, ?_, ?_, ?_, ?_, ?_, ?_, ?_, ?_, ?_⟩ <;> rfl

/-! ### emit -/

@[simp] theorem State.emit_out (bs : Bytes) : (s.emit bs).out = s.out ++ [.tx bs] := rfl

@[simp] theorem State.emit_keeps (bs : Bytes) :
    (s.emit bs).params = s.params ∧ (s.emit bs).cfgRole = s.cfgRole ∧
    (s.emit bs).cfgMaxAttempts = s.cfgMaxAttempts ∧ (s.emit bs).cfgTimeout = s.cfgTimeout ∧
    (s.emit bs).cfgWritten = s.cfgWritten ∧ (s.emit bs).link = s.link ∧ (s.emit bs).op = s.op ∧
    (s.emit bs).ns = s.ns ∧ (s.emit bs).nr = s.nr ∧ (s.emit bs).discPending = s.discPending ∧
    (s.emit bs).txCount = s.txCount ∧ (s.emit bs).txbuf = s.txbuf ∧ (s.emit bs).txLen = s.txLen ∧
    (s.emit bs).statBytes = s.statBytes ∧ (s.emit bs).statRetx = s.statRetx ∧ (s.emit bs).rx = s.rx ∧
    (s.emit bs).timerArmed = s.timerArmed ∧ (s.emit bs).collect = s.collect ∧
    (s.emit bs).chanOk = s.chanOk ∧ (s.emit bs).chanRx = s.chanRx ∧ (s.emit bs).inputs = s.inputs := by
  refine ⟨?_, ?_, ?_, ?_, ?_, ?_, ?_, ?_, ?_, ?_, ?_, ?_, ?_, ?_, ?_, ?_, ?_, ?_, ?_, ?_, ?_⟩ <;> rfl

/-! ### respond -/

@[simp] theorem State.respond_op (c : Code) (v : Value) : (s.respond c v).op = .idle := rfl

@[simp] theorem State.respond_out (c : Code) (v : Value) : (s.respond c v).out = s.out ++ [.resp c v] := rfl

@[simp] theorem State.respond_keeps (c : Code) (v : Value) :
    (s.respond c v).params = s.params ∧ (s.respond c v).cfgRole = s.cfgRole ∧
    (s.respond c v).cfgMaxAttempts = s.cfgMaxAttempts ∧ (s.respond c v).cfgTimeout = s.cfgTimeout ∧
    (s.respond c v).cfgWritten = s.cfgWritten ∧ (s.respond c v).link = s.link ∧
    (s.respond c v).ns = s.ns ∧ (s.respond c v).nr = s.nr ∧
    (s.respond c v).discPending = s.discPending ∧ (s.respond c v).txCount = s.txCount ∧
    (s.respond c v).txbuf = s.txbuf ∧ (s.respond c v).txLen = s.txLen ∧
    (s.respond c v).statBytes = s.statBytes ∧ (s.respond c v).statRetx = s.statRetx ∧
    (s.respond c v).rx = s.rx ∧ (s.respond c v).timerArmed = s.timerArmed ∧
    (s.respond c v).collect = s.collect ∧ (s.respond c v).chanOk = s.chanOk ∧
    (s.respond c v).chanRx = s.chanRx ∧ (s.respond c v).inputs = s.inputs := by
  refine ⟨?_, ?_, ?_, ?_, ?_, ?_, ?_, ?_, ?_, ?_, ?_, ?_, ?_, ?_, ?_, ?_, ?_, ?_, ?_, ?_⟩ <;> rfl

/-! ### askChanOpen -/

@[simp] theorem State.askChanOpen_out (device baud : Bytes) : (s.askChanOpen device baud).out = s.out ++ [.chanOpen device baud] := rfl

@[simp] theorem State.askChanOpen_keeps (device baud : Bytes) :
    (s.askChanOpen device baud).params = s.params ∧ (s.askChanOpen device baud).cfgRole = s.cfgRole ∧
    (s.askChanOpen device baud).cfgMaxAttempts = s.cfgMaxAttempts ∧
    (s.askChanOpen device baud).cfgTimeout = s.cfgTimeout ∧
    (s.askChanOpen device baud).cfgWritten = s.cfgWritten ∧ (s.askChanOpen device baud).link = s.link ∧
    (s.askChanOpen device baud).op = s.op ∧ (s.askChanOpen device baud).ns = s.ns ∧
    (s.askChanOpen device baud).nr = s.nr ∧ (s.askChanOpen device baud).discPending = s.discPending ∧
    (s.askChanOpen device baud).txCount = s.txCount ∧ (s.askChanOpen device baud).txbuf = s.txbuf ∧
    (s.askChanOpen device baud).txLen = s.txLen ∧ (s.askChanOpen device baud).statBytes = s.statBytes ∧
    (s.askChanOpen device baud).statRetx = s.statRetx ∧ (s.askChanOpen device baud).rx = s.rx ∧
    (s.askChanOpen device baud).timerArmed = s.timerArmed ∧
    (s.askChanOpen device baud).collect = s.collect ∧ (s.askChanOpen device baud).chanOk = s.chanOk ∧
    (s.askChanOpen device baud).chanRx = s.chanRx ∧ (s.askChanOpen device baud).inputs = s.inputs := by
  refine ⟨?_, ?_, ?_, ?_, ?_, ?_, ?_, ?_, ?_, ?_, ?_, ?_, ?_, ?_, ?_, ?_, ?_, ?_, ?_, ?_, ?_⟩ <;> rfl

/-! ### chanRelease -/

@[simp] theorem State.chanRelease_out : (s.chanRelease).out = s.out ++ [.chanRestore, .chanClose] := rfl

@[simp] theorem State.chanRelease_keeps :
    (s.chanRelease).params = s.params ∧ (s.chanRelease).cfgRole = s.cfgRole ∧
    (s.chanRelease).cfgMaxAttempts = s.cfgMaxAttempts ∧ (s.chanRelease).cfgTimeout = s.cfgTimeout ∧
    (s.chanRelease).cfgWritten = s.cfgWritten ∧ (s.chanRelease).link = s.link ∧
    (s.chanRelease).op = s.op ∧ (s.chanRelease).ns = s.ns ∧ (s.chanRelease).nr = s.nr ∧
    (s.chanRelease).discPending = s.discPending ∧ (s.chanRelease).txCount = s.txCount ∧
    (s.chanRelease).txbuf = s.txbuf ∧ (s.chanRelease).txLen = s.txLen ∧
    (s.chanRelease).statBytes = s.statBytes ∧ (s.chanRelease).statRetx = s.statRetx ∧
    (s.chanRelease).rx = s.rx ∧ (s.chanRelease).timerArmed = s.timerArmed ∧
    (s.chanRelease).collect = s.collect ∧ (s.chanRelease).chanOk = s.chanOk ∧
    (s.chanRelease).chanRx = s.chanRx ∧ (s.chanRelease).inputs = s.inputs := by
  refine ⟨?_, ?_, ?_, ?_, ?_, ?_, ?_, ?_, ?_, ?_, ?_, ?_, ?_, ?_, ?_, ?_, ?_, ?_, ?_, ?_, ?_⟩ <;> rfl

/-! ### arm -/

@[simp] theorem State.arm_timerArmed : (s.arm).timerArmed = true := rfl

@[simp] theorem State.arm_keeps :
    (s.arm).params = s.params ∧ (s.arm).cfgRole = s.cfgRole ∧
    (s.arm).cfgMaxAttempts = s.cfgMaxAttempts ∧ (s.arm).cfgTimeout = s.cfgTimeout ∧
    (s.arm).cfgWritten = s.cfgWritten ∧ (s.arm).link = s.link ∧ (s.arm).op = s.op ∧ (s.arm).ns = s.ns ∧
    (s.arm).nr = s.nr ∧ (s.arm).discPending = s.discPending ∧ (s.arm).txCount = s.txCount ∧
    (s.arm).txbuf = s.txbuf ∧ (s.arm).txLen = s.txLen ∧ (s.arm).statBytes = s.statBytes ∧
    (s.arm).statRetx = s.statRetx ∧ (s.arm).rx = s.rx ∧ (s.arm).collect = s.collect ∧
    (s.arm).out = s.out ∧ (s.arm).chanOk = s.chanOk ∧ (s.arm).chanRx = s.chanRx ∧
    (s.arm).inputs = s.inputs := by
  refine ⟨?_, ?_, ?_, ?_, ?_, ?_, ?_, ?_, ?_, ?_, ?_, ?_, ?_, ?_, ?_, ?_, ?_, ?_, ?_, ?_, ?_⟩ <;> rfl

/-! ### disarm -/

@[simp] theorem State.disarm_timerArmed : (s.disarm).timerArmed = false := rfl

@[simp] theorem State.disarm_keeps :
    (s.disarm).params = s.params ∧ (s.disarm).cfgRole = s.cfgRole ∧
    (s.disarm).cfgMaxAttempts = s.cfgMaxAttempts ∧ (s.disarm).cfgTimeout = s.cfgTimeout ∧
    (s.disarm).cfgWritten = s.cfgWritten ∧ (s.disarm).link = s.link ∧ (s.disarm).op = s.op ∧
    (s.disarm).ns = s.ns ∧ (s.disarm).nr = s.nr ∧ (s.disarm).discPending = s.discPending ∧
    (s.disarm).txCount = s.txCount ∧ (s.disarm).txbuf = s.txbuf ∧ (s.disarm).txLen = s.txLen ∧
    (s.disarm).statBytes = s.statBytes ∧ (s.disarm).statRetx = s.statRetx ∧ (s.disarm).rx = s.rx ∧
    (s.disarm).collect = s.collect ∧ (s.disarm).out = s.out ∧ (s.disarm).chanOk = s.chanOk ∧
    (s.disarm).chanRx = s.chanRx ∧ (s.disarm).inputs = s.inputs := by
  refine ⟨?_, ?_, ?_, ?_, ?_, ?_, ?_, ?_, ?_, ?_, ?_, ?_, ?_, ?_, ?_, ?_, ?_, ?_, ?_, ?_, ?_⟩ <;> rfl

/-! ### parserReset -/

@[simp] theorem State.parserReset_rx : (s.parserReset).rx = s.rx.reset := rfl

@[simp] theorem State.parserReset_keeps :
    (s.parserReset).params = s.params ∧ (s.parserReset).cfgRole = s.cfgRole ∧
    (s.parserReset).cfgMaxAttempts = s.cfgMaxAttempts ∧ (s.parserReset).cfgTimeout = s.cfgTimeout ∧
    (s.parserReset).cfgWritten = s.cfgWritten ∧ (s.parserReset).link = s.link ∧
    (s.parserReset).op = s.op ∧ (s.parserReset).ns = s.ns ∧ (s.parserReset).nr = s.nr ∧
    (s.parserReset).discPending = s.discPending ∧ (s.parserReset).txCount = s.txCount ∧
    (s.parserReset).txbuf = s.txbuf ∧ (s.parserReset).txLen = s.txLen ∧
    (s.parserReset).statBytes = s.statBytes ∧ (s.parserReset).statRetx = s.statRetx ∧
    (s.parserReset).timerArmed = s.timerArmed ∧ (s.parserReset).collect = s.collect ∧
    (s.parserReset).out = s.out ∧ (s.parserReset).chanOk = s.chanOk ∧
    (s.parserReset).chanRx = s.chanRx ∧ (s.parserReset).inputs = s.inputs := by
  refine ⟨?_, ?_, ?_, ?_, ?_, ?_, ?_, ?_, ?_, ?_, ?_, ?_, ?_, ?_, ?_, ?_, ?_, ?_, ?_, ?_, ?_⟩ <;> rfl

/-! ### setOp -/

@[simp] theorem State.setOp_op (o : Op) : (s.setOp o).op = o := rfl

@[simp] theorem State.setOp_keeps (o : Op) :
    (s.setOp o).params = s.params ∧ (s.setOp o).cfgRole = s.cfgRole ∧
    (s.setOp o).cfgMaxAttempts = s.cfgMaxAttempts ∧ (s.setOp o).cfgTimeout = s.cfgTimeout ∧
    (s.setOp o).cfgWritten = s.cfgWritten ∧ (s.setOp o).link = s.link ∧ (s.setOp o).ns = s.ns ∧
    (s.setOp o).nr = s.nr ∧ (s.setOp o).discPending = s.discPending ∧ (s.setOp o).txCount = s.txCount ∧
    (s.setOp o).txbuf = s.txbuf ∧ (s.setOp o).txLen = s.txLen ∧ (s.setOp o).statBytes = s.statBytes ∧
    (s.setOp o).statRetx = s.statRetx ∧ (s.setOp o).rx = s.rx ∧ (s.setOp o).timerArmed = s.timerArmed ∧
    (s.setOp o).collect = s.collect ∧ (s.setOp o).out = s.out ∧ (s.setOp o).chanOk = s.chanOk ∧
    (s.setOp o).chanRx = s.chanRx ∧ (s.setOp o).inputs = s.inputs := by
  refine ⟨?_, ?_, ?_, ?_, ?_, ?_, ?_, ?_, ?_, ?_, ?_, ?_, ?_, ?_, ?_, ?_, ?_, ?_, ?_, ?_, ?_⟩ <;> rfl

/-! ### setLink -/

@[simp] theorem State.setLink_link (l : Link) : (s.setLink l).link = l := rfl

@[simp] theorem State.setLink_keeps (l : Link) :
    (s.setLink l).params = s.params ∧ (s.setLink l).cfgRole = s.cfgRole ∧
    (s.setLink l).cfgMaxAttempts = s.cfgMaxAttempts ∧ (s.setLink l).cfgTimeout = s.cfgTimeout ∧
    (s.setLink l).cfgWritten = s.cfgWritten ∧ (s.setLink l).op = s.op ∧ (s.setLink l).ns = s.ns ∧
    (s.setLink l).nr = s.nr ∧ (s.setLink l).discPending = s.discPending ∧
    (s.setLink l).txCount = s.txCount ∧ (s.setLink l).txbuf = s.txbuf ∧ (s.setLink l).txLen = s.txLen ∧
    (s.setLink l).statBytes = s.statBytes ∧ (s.setLink l).statRetx = s.statRetx ∧
    (s.setLink l).rx = s.rx ∧ (s.setLink l).timerArmed = s.timerArmed ∧
    (s.setLink l).collect = s.collect ∧ (s.setLink l).out = s.out ∧ (s.setLink l).chanOk = s.chanOk ∧
    (s.setLink l).chanRx = s.chanRx ∧ (s.setLink l).inputs = s.inputs := by
  refine ⟨?_, ?_, ?_, ?_, ?_, ?_, ?_, ?_, ?_, ?_, ?_, ?_, ?_, ?_, ?_, ?_, ?_, ?_, ?_, ?_, ?_⟩ <;> rfl

/-! ### setTxLen -/

@[simp] theorem State.setTxLen_txLen (n : Nat) : (s.setTxLen n).txLen = n := rfl

@[simp] theorem State.setTxLen_keeps (n : Nat) :
    (s.setTxLen n).params = s.params ∧ (s.setTxLen n).cfgRole = s.cfgRole ∧
    (s.setTxLen n).cfgMaxAttempts = s.cfgMaxAttempts ∧ (s.setTxLen n).cfgTimeout = s.cfgTimeout ∧
    (s.setTxLen n).cfgWritten = s.cfgWritten ∧ (s.setTxLen n).link = s.link ∧
    (s.setTxLen n).op = s.op ∧ (s.setTxLen n).ns = s.ns ∧ (s.setTxLen n).nr = s.nr ∧
    (s.setTxLen n).discPending = s.discPending ∧ (s.setTxLen n).txCount = s.txCount ∧
    (s.setTxLen n).txbuf = s.txbuf ∧ (s.setTxLen n).statBytes = s.statBytes ∧
    (s.setTxLen n).statRetx = s.statRetx ∧ (s.setTxLen n).rx = s.rx ∧
    (s.setTxLen n).timerArmed = s.timerArmed ∧ (s.setTxLen n).collect = s.collect ∧
    (s.setTxLen n).out = s.out ∧ (s.setTxLen n).chanOk = s.chanOk ∧ (s.setTxLen n).chanRx = s.chanRx ∧
    (s.setTxLen n).inputs = s.inputs := by
  refine ⟨?_, ?_, ?_, ?_, ?_, ?_, ?_, ?_, ?_, ?_, ?_, ?_, ?_, ?_, ?_, ?_, ?_, ?_, ?_, ?_, ?_⟩ <;> rfl

/-! ### latchClose -/

@[simp] theorem State.latchClose_link (c : Bit) : (s.latchClose c).link = .disconnecting := rfl

@[simp] theorem State.latchClose_collect (c : Bit) : (s.latchClose c).collect = c := rfl

@[simp] theorem State.latchClose_keeps (c : Bit) :
    (s.latchClose c).params = s.params ∧ (s.latchClose c).cfgRole = s.cfgRole ∧
    (s.latchClose c).cfgMaxAttempts = s.cfgMaxAttempts ∧ (s.latchClose c).cfgTimeout = s.cfgTimeout ∧
    (s.latchClose c).cfgWritten = s.cfgWritten ∧ (s.latchClose c).op = s.op ∧
    (s.latchClose c).ns = s.ns ∧ (s.latchClose c).nr = s.nr ∧
    (s.latchClose c).discPending = s.discPending ∧ (s.latchClose c).txCount = s.txCount ∧
    (s.latchClose c).txbuf = s.txbuf ∧ (s.latchClose c).txLen = s.txLen ∧
    (s.latchClose c).statBytes = s.statBytes ∧ (s.latchClose c).statRetx = s.statRetx ∧
    (s.latchClose c).rx = s.rx ∧ (s.latchClose c).timerArmed = s.timerArmed ∧
    (s.latchClose c).out = s.out ∧ (s.latchClose c).chanOk = s.chanOk ∧
    (s.latchClose c).chanRx = s.chanRx ∧ (s.latchClose c).inputs = s.inputs := by
  refine ⟨?_, ?_, ?_, ?_, ?_, ?_, ?_, ?_, ?_, ?_, ?_, ?_, ?_, ?_, ?_, ?_, ?_, ?_, ?_, ?_⟩ <;> rfl

/-! ### createSession -/

@[simp] theorem State.createSession_cfgRole (role : Role) (m t : U32) : (s.createSession role m t).cfgRole = role := rfl

@[simp] theorem State.createSession_cfgMaxAttempts (role : Role) (m t : U32) : (s.createSession role m t).cfgMaxAttempts = m.toNat := rfl

@[simp] theorem State.createSession_cfgTimeout (role : Role) (m t : U32) : (s.createSession role m t).cfgTimeout = t.toNat := rfl

@[simp] theorem State.createSession_cfgWritten (role : Role) (m t : U32) : (s.createSession role m t).cfgWritten = true := rfl

@[simp] theorem State.createSession_link (role : Role) (m t : U32) : (s.createSession role m t).link = .connecting := rfl

@[simp] theorem State.createSession_ns (role : Role) (m t : U32) : (s.createSession role m t).ns = false := rfl

@[simp] theorem State.createSession_nr (role : Role) (m t : U32) : (s.createSession role m t).nr = false := rfl

@[simp] theorem State.createSession_discPending (role : Role) (m t : U32) : (s.createSession role m t).discPending = false := rfl

@[simp] theorem State.createSession_txCount (role : Role) (m t : U32) : (s.createSession role m t).txCount = 0 := rfl

@[simp] theorem State.createSession_txbuf (role : Role) (m t : U32) : (s.createSession role m t).txbuf = [] := rfl

@[simp] theorem State.createSession_txLen (role : Role) (m t : U32) : (s.createSession role m t).txLen = 0 := rfl

@[simp] theorem State.createSession_statBytes (role : Role) (m t : U32) : (s.createSession role m t).statBytes = 0 := rfl

@[simp] theorem State.createSession_statRetx (role : Role) (m t : U32) : (s.createSession role m t).statRetx = 0 := rfl

@[simp] theorem State.createSession_keeps (role : Role) (m t : U32) :
    (s.createSession role m t).params = s.params ∧ (s.createSession role m t).op = s.op ∧
    (s.createSession role m t).rx = s.rx ∧ (s.createSession role m t).timerArmed = s.timerArmed ∧
    (s.createSession role m t).collect = s.collect ∧ (s.createSession role m t).out = s.out ∧
    (s.createSession role m t).chanOk = s.chanOk ∧ (s.createSession role m t).chanRx = s.chanRx ∧
    (s.createSession role m t).inputs = s.inputs := by
  refine ⟨?_, ?_, ?_, ?_, ?_, ?_, ?_, ?_, ?_⟩ <;> rfl

/-! ### transmitFirst -/

@[simp] theorem State.transmitFirst_txCount (bs : Bytes) : (s.transmitFirst bs).txCount = 1 := rfl

@[simp] theorem State.transmitFirst_txbuf (bs : Bytes) : (s.transmitFirst bs).txbuf = bs := rfl

@[simp] theorem State.transmitFirst_timerArmed (bs : Bytes) : (s.transmitFirst bs).timerArmed = true := rfl

@[simp] theorem State.transmitFirst_out (bs : Bytes) : (s.transmitFirst bs).out = s.out ++ [.tx bs] := rfl

@[simp] theorem State.transmitFirst_keeps (bs : Bytes) :
    (s.transmitFirst bs).params = s.params ∧ (s.transmitFirst bs).cfgRole = s.cfgRole ∧
    (s.transmitFirst bs).cfgMaxAttempts = s.cfgMaxAttempts ∧
    (s.transmitFirst bs).cfgTimeout = s.cfgTimeout ∧ (s.transmitFirst bs).cfgWritten = s.cfgWritten ∧
    (s.transmitFirst bs).link = s.link ∧ (s.transmitFirst bs).op = s.op ∧
    (s.transmitFirst bs).ns = s.ns ∧ (s.transmitFirst bs).nr = s.nr ∧
    (s.transmitFirst bs).discPending = s.discPending ∧ (s.transmitFirst bs).txLen = s.txLen ∧
    (s.transmitFirst bs).statBytes = s.statBytes ∧ (s.transmitFirst bs).statRetx = s.statRetx ∧
    (s.transmitFirst bs).rx = s.rx ∧ (s.transmitFirst bs).collect = s.collect ∧
    (s.transmitFirst bs).chanOk = s.chanOk ∧ (s.transmitFirst bs).chanRx = s.chanRx ∧
    (s.transmitFirst bs).inputs = s.inputs := by
  refine ⟨?_, ?_, ?_, ?_, ?_, ?_, ?_, ?_, ?_, ?_, ?_, ?_, ?_, ?_, ?_, ?_, ?_, ?_⟩ <;> rfl

/-! ### retransmit -/

@[simp] theorem State.retransmit_txCount : (s.retransmit).txCount = s.txCount + 1 := rfl

@[simp] theorem State.retransmit_statRetx : (s.retransmit).statRetx = s.statRetx + 1 := rfl

@[simp] theorem State.retransmit_timerArmed : (s.retransmit).timerArmed = true := rfl

@[simp] theorem State.retransmit_out : (s.retransmit).out = s.out ++ [.tx s.txbuf] := rfl

@[simp] theorem State.retransmit_keeps :
    (s.retransmit).params = s.params ∧ (s.retransmit).cfgRole = s.cfgRole ∧
    (s.retransmit).cfgMaxAttempts = s.cfgMaxAttempts ∧ (s.retransmit).cfgTimeout = s.cfgTimeout ∧
    (s.retransmit).cfgWritten = s.cfgWritten ∧ (s.retransmit).link = s.link ∧
    (s.retransmit).op = s.op ∧ (s.retransmit).ns = s.ns ∧ (s.retransmit).nr = s.nr ∧
    (s.retransmit).discPending = s.discPending ∧ (s.retransmit).txbuf = s.txbuf ∧
    (s.retransmit).txLen = s.txLen ∧ (s.retransmit).statBytes = s.statBytes ∧
    (s.retransmit).rx = s.rx ∧ (s.retransmit).collect = s.collect ∧ (s.retransmit).chanOk = s.chanOk ∧
    (s.retransmit).chanRx = s.chanRx ∧ (s.retransmit).inputs = s.inputs := by
  refine ⟨?_, ?_, ?_, ?_, ?_, ?_, ?_, ?_, ?_, ?_, ?_, ?_, ?_, ?_, ?_, ?_, ?_, ?_⟩ <;> rfl

/-! ### toggleNs -/

@[simp] theorem State.toggleNs_ns : (s.toggleNs).ns = !s.ns := rfl

@[simp] theorem State.toggleNs_keeps :
    (s.toggleNs).params = s.params ∧ (s.toggleNs).cfgRole = s.cfgRole ∧
    (s.toggleNs).cfgMaxAttempts = s.cfgMaxAttempts ∧ (s.toggleNs).cfgTimeout = s.cfgTimeout ∧
    (s.toggleNs).cfgWritten = s.cfgWritten ∧ (s.toggleNs).link = s.link ∧ (s.toggleNs).op = s.op ∧
    (s.toggleNs).nr = s.nr ∧ (s.toggleNs).discPending = s.discPending ∧
    (s.toggleNs).txCount = s.txCount ∧ (s.toggleNs).txbuf = s.txbuf ∧ (s.toggleNs).txLen = s.txLen ∧
    (s.toggleNs).statBytes = s.statBytes ∧ (s.toggleNs).statRetx = s.statRetx ∧
    (s.toggleNs).rx = s.rx ∧ (s.toggleNs).timerArmed = s.timerArmed ∧
    (s.toggleNs).collect = s.collect ∧ (s.toggleNs).out = s.out ∧ (s.toggleNs).chanOk = s.chanOk ∧
    (s.toggleNs).chanRx = s.chanRx ∧ (s.toggleNs).inputs = s.inputs := by
  refine ⟨?_, ?_, ?_, ?_, ?_, ?_, ?_, ?_, ?_, ?_, ?_, ?_, ?_, ?_, ?_, ?_, ?_, ?_, ?_, ?_, ?_⟩ <;> rfl

/-! ### toggleNr -/

@[simp] theorem State.toggleNr_nr : (s.toggleNr).nr = !s.nr := rfl

@[simp] theorem State.toggleNr_keeps :
    (s.toggleNr).params = s.params ∧ (s.toggleNr).cfgRole = s.cfgRole ∧
    (s.toggleNr).cfgMaxAttempts = s.cfgMaxAttempts ∧ (s.toggleNr).cfgTimeout = s.cfgTimeout ∧
    (s.toggleNr).cfgWritten = s.cfgWritten ∧ (s.toggleNr).link = s.link ∧ (s.toggleNr).op = s.op ∧
    (s.toggleNr).ns = s.ns ∧ (s.toggleNr).discPending = s.discPending ∧
    (s.toggleNr).txCount = s.txCount ∧ (s.toggleNr).txbuf = s.txbuf ∧ (s.toggleNr).txLen = s.txLen ∧
    (s.toggleNr).statBytes = s.statBytes ∧ (s.toggleNr).statRetx = s.statRetx ∧
    (s.toggleNr).rx = s.rx ∧ (s.toggleNr).timerArmed = s.timerArmed ∧
    (s.toggleNr).collect = s.collect ∧ (s.toggleNr).out = s.out ∧ (s.toggleNr).chanOk = s.chanOk ∧
    (s.toggleNr).chanRx = s.chanRx ∧ (s.toggleNr).inputs = s.inputs := by
  refine ⟨?_, ?_, ?_, ?_, ?_, ?_, ?_, ?_, ?_, ?_, ?_, ?_, ?_, ?_, ?_, ?_, ?_, ?_, ?_, ?_, ?_⟩ <;> rfl

/-! ### setDiscPending -/

@[simp] theorem State.setDiscPending_discPending : (s.setDiscPending).discPending = true := rfl

@[simp] theorem State.setDiscPending_keeps :
    (s.setDiscPending).params = s.params ∧ (s.setDiscPending).cfgRole = s.cfgRole ∧
    (s.setDiscPending).cfgMaxAttempts = s.cfgMaxAttempts ∧
    (s.setDiscPending).cfgTimeout = s.cfgTimeout ∧ (s.setDiscPending).cfgWritten = s.cfgWritten ∧
    (s.setDiscPending).link = s.link ∧ (s.setDiscPending).op = s.op ∧ (s.setDiscPending).ns = s.ns ∧
    (s.setDiscPending).nr = s.nr ∧ (s.setDiscPending).txCount = s.txCount ∧
    (s.setDiscPending).txbuf = s.txbuf ∧ (s.setDiscPending).txLen = s.txLen ∧
    (s.setDiscPending).statBytes = s.statBytes ∧ (s.setDiscPending).statRetx = s.statRetx ∧
    (s.setDiscPending).rx = s.rx ∧ (s.setDiscPending).timerArmed = s.timerArmed ∧
    (s.setDiscPending).collect = s.collect ∧ (s.setDiscPending).out = s.out ∧
    (s.setDiscPending).chanOk = s.chanOk ∧ (s.setDiscPending).chanRx = s.chanRx ∧
    (s.setDiscPending).inputs = s.inputs := by
  refine ⟨?_, ?_, ?_, ?_, ?_, ?_, ?_, ?_, ?_, ?_, ?_, ?_, ?_, ?_, ?_, ?_, ?_, ?_, ?_, ?_, ?_⟩ <;> rfl

/-! ### countBytes -/

@[simp] theorem State.countBytes_statBytes (n : Nat) : (s.countBytes n).statBytes = s.statBytes + BitVec.ofNat 32 n := rfl

@[simp] theorem State.countBytes_keeps (n : Nat) :
    (s.countBytes n).params = s.params ∧ (s.countBytes n).cfgRole = s.cfgRole ∧
    (s.countBytes n).cfgMaxAttempts = s.cfgMaxAttempts ∧ (s.countBytes n).cfgTimeout = s.cfgTimeout ∧
    (s.countBytes n).cfgWritten = s.cfgWritten ∧ (s.countBytes n).link = s.link ∧
    (s.countBytes n).op = s.op ∧ (s.countBytes n).ns = s.ns ∧ (s.countBytes n).nr = s.nr ∧
    (s.countBytes n).discPending = s.discPending ∧ (s.countBytes n).txCount = s.txCount ∧
    (s.countBytes n).txbuf = s.txbuf ∧ (s.countBytes n).txLen = s.txLen ∧
    (s.countBytes n).statRetx = s.statRetx ∧ (s.countBytes n).rx = s.rx ∧
    (s.countBytes n).timerArmed = s.timerArmed ∧ (s.countBytes n).collect = s.collect ∧
    (s.countBytes n).out = s.out ∧ (s.countBytes n).chanOk = s.chanOk ∧
    (s.countBytes n).chanRx = s.chanRx ∧ (s.countBytes n).inputs = s.inputs := by
  refine ⟨?_, ?_, ?_, ?_, ?_, ?_, ?_, ?_, ?_, ?_, ?_, ?_, ?_, ?_, ?_, ?_, ?_, ?_, ?_, ?_, ?_⟩ <;> rfl

/-! ### pop -/

@[simp] theorem State.pop_inputs (rest : List Input) : (s.pop rest).inputs = rest := rfl

@[simp] theorem State.pop_keeps (rest : List Input) :
    (s.pop rest).params = s.params ∧ (s.pop rest).cfgRole = s.cfgRole ∧
    (s.pop rest).cfgMaxAttempts = s.cfgMaxAttempts ∧ (s.pop rest).cfgTimeout = s.cfgTimeout ∧
    (s.pop rest).cfgWritten = s.cfgWritten ∧ (s.pop rest).link = s.link ∧ (s.pop rest).op = s.op ∧
    (s.pop rest).ns = s.ns ∧ (s.pop rest).nr = s.nr ∧ (s.pop rest).discPending = s.discPending ∧
    (s.pop rest).txCount = s.txCount ∧ (s.pop rest).txbuf = s.txbuf ∧ (s.pop rest).txLen = s.txLen ∧
    (s.pop rest).statBytes = s.statBytes ∧ (s.pop rest).statRetx = s.statRetx ∧
    (s.pop rest).rx = s.rx ∧ (s.pop rest).timerArmed = s.timerArmed ∧
    (s.pop rest).collect = s.collect ∧ (s.pop rest).out = s.out ∧ (s.pop rest).chanOk = s.chanOk ∧
    (s.pop rest).chanRx = s.chanRx := by
  refine ⟨?_, ?_, ?_, ?_, ?_, ?_, ?_, ?_, ?_, ?_, ?_, ?_, ?_, ?_, ?_, ?_, ?_, ?_, ?_, ?_, ?_⟩ <;> rfl

/-! ### takeCommand -/

@[simp] theorem State.takeCommand_chanOk (rest : List Input) (ok : Bit) : (s.takeCommand rest ok).chanOk = ok := rfl

@[simp] theorem State.takeCommand_inputs (rest : List Input) (ok : Bit) : (s.takeCommand rest ok).inputs = rest := rfl

@[simp] theorem State.takeCommand_keeps (rest : List Input) (ok : Bit) :
    (s.takeCommand rest ok).params = s.params ∧ (s.takeCommand rest ok).cfgRole = s.cfgRole ∧
    (s.takeCommand rest ok).cfgMaxAttempts = s.cfgMaxAttempts ∧
    (s.takeCommand rest ok).cfgTimeout = s.cfgTimeout ∧
    (s.takeCommand rest ok).cfgWritten = s.cfgWritten ∧ (s.takeCommand rest ok).link = s.link ∧
    (s.takeCommand rest ok).op = s.op ∧ (s.takeCommand rest ok).ns = s.ns ∧
    (s.takeCommand rest ok).nr = s.nr ∧ (s.takeCommand rest ok).discPending = s.discPending ∧
    (s.takeCommand rest ok).txCount = s.txCount ∧ (s.takeCommand rest ok).txbuf = s.txbuf ∧
    (s.takeCommand rest ok).txLen = s.txLen ∧ (s.takeCommand rest ok).statBytes = s.statBytes ∧
    (s.takeCommand rest ok).statRetx = s.statRetx ∧ (s.takeCommand rest ok).rx = s.rx ∧
    (s.takeCommand rest ok).timerArmed = s.timerArmed ∧ (s.takeCommand rest ok).collect = s.collect ∧
    (s.takeCommand rest ok).out = s.out ∧ (s.takeCommand rest ok).chanRx = s.chanRx := by
  refine ⟨?_, ?_, ?_, ?_, ?_, ?_, ?_, ?_, ?_, ?_, ?_, ?_, ?_, ?_, ?_, ?_, ?_, ?_, ?_, ?_⟩ <;> rfl

/-! ### takeArrival -/

@[simp] theorem State.takeArrival_chanRx (rest : List Input) (bs : Bytes) : (s.takeArrival rest bs).chanRx = s.chanRx ++ bs := rfl

@[simp] theorem State.takeArrival_inputs (rest : List Input) (bs : Bytes) : (s.takeArrival rest bs).inputs = rest := rfl

@[simp] theorem State.takeArrival_keeps (rest : List Input) (bs : Bytes) :
    (s.takeArrival rest bs).params = s.params ∧ (s.takeArrival rest bs).cfgRole = s.cfgRole ∧
    (s.takeArrival rest bs).cfgMaxAttempts = s.cfgMaxAttempts ∧
    (s.takeArrival rest bs).cfgTimeout = s.cfgTimeout ∧
    (s.takeArrival rest bs).cfgWritten = s.cfgWritten ∧ (s.takeArrival rest bs).link = s.link ∧
    (s.takeArrival rest bs).op = s.op ∧ (s.takeArrival rest bs).ns = s.ns ∧
    (s.takeArrival rest bs).nr = s.nr ∧ (s.takeArrival rest bs).discPending = s.discPending ∧
    (s.takeArrival rest bs).txCount = s.txCount ∧ (s.takeArrival rest bs).txbuf = s.txbuf ∧
    (s.takeArrival rest bs).txLen = s.txLen ∧ (s.takeArrival rest bs).statBytes = s.statBytes ∧
    (s.takeArrival rest bs).statRetx = s.statRetx ∧ (s.takeArrival rest bs).rx = s.rx ∧
    (s.takeArrival rest bs).timerArmed = s.timerArmed ∧ (s.takeArrival rest bs).collect = s.collect ∧
    (s.takeArrival rest bs).out = s.out ∧ (s.takeArrival rest bs).chanOk = s.chanOk := by
  refine ⟨?_, ?_, ?_, ?_, ?_, ?_, ?_, ?_, ?_, ?_, ?_, ?_, ?_, ?_, ?_, ?_, ?_, ?_, ?_, ?_⟩ <;> rfl

/-! ### afterByte -/

@[simp] theorem State.afterByte_rx (r : ParserRegs) (q : Bytes) : (s.afterByte r q).rx = r := rfl

@[simp] theorem State.afterByte_chanRx (r : ParserRegs) (q : Bytes) : (s.afterByte r q).chanRx = q := rfl

@[simp] theorem State.afterByte_keeps (r : ParserRegs) (q : Bytes) :
    (s.afterByte r q).params = s.params ∧ (s.afterByte r q).cfgRole = s.cfgRole ∧
    (s.afterByte r q).cfgMaxAttempts = s.cfgMaxAttempts ∧ (s.afterByte r q).cfgTimeout = s.cfgTimeout ∧
    (s.afterByte r q).cfgWritten = s.cfgWritten ∧ (s.afterByte r q).link = s.link ∧
    (s.afterByte r q).op = s.op ∧ (s.afterByte r q).ns = s.ns ∧ (s.afterByte r q).nr = s.nr ∧
    (s.afterByte r q).discPending = s.discPending ∧ (s.afterByte r q).txCount = s.txCount ∧
    (s.afterByte r q).txbuf = s.txbuf ∧ (s.afterByte r q).txLen = s.txLen ∧
    (s.afterByte r q).statBytes = s.statBytes ∧ (s.afterByte r q).statRetx = s.statRetx ∧
    (s.afterByte r q).timerArmed = s.timerArmed ∧ (s.afterByte r q).collect = s.collect ∧
    (s.afterByte r q).out = s.out ∧ (s.afterByte r q).chanOk = s.chanOk ∧
    (s.afterByte r q).inputs = s.inputs := by
  refine ⟨?_, ?_, ?_, ?_, ?_, ?_, ?_, ?_, ?_, ?_, ?_, ?_, ?_, ?_, ?_, ?_, ?_, ?_, ?_, ?_⟩ <;> rfl

end Sys2Proof.Machine
end

