-- ==== Sys2Proof/Laws/Ops.lean ====
section
/-! SUPPORT. One lemma per shared operation and per meaning: everything it can do when it answers a next state. -/

namespace Sys2Proof.Machine

/-! ### Outcomes -/

@[simp] theorem next_inj {s t : State} : (Host.Outcome.next s : Result) = .next t ↔ t = s := by
  constructor
  · intro h; injection h with h; exact h.symm
  · rintro rfl; rfl

theorem withRole_next {s t : State} {k : Role → Result} (h : withRole s k = .next t) :
    s.cfgWritten = true ∧ k s.cfgRole = .next t := by
  unfold withRole at h
  split at h
  · exact ⟨‹_›, h⟩
  · cases h

theorem withMaxAttempts_next {s t : State} {k : Nat → Result} (h : withMaxAttempts s k = .next t) :
    s.cfgWritten = true ∧ k s.cfgMaxAttempts = .next t := by
  unfold withMaxAttempts at h
  split at h
  · exact ⟨‹_›, h⟩
  · cases h

theorem whenIdle_next {s t : State} {r : Result} (h : whenIdle s r = .next t) : s.op = .idle ∧ r = .next t := by
  unfold whenIdle at h
  split at h
  · exact ⟨‹_›, h⟩
  · cases h

/-! ### Failing (spec/60_exceptions.md R401, R404) -/

theorem cleanup_out (s : State) : s.cleanup.out = s.out ++ cleanupRecords s.op := by
  unfold State.cleanup
  cases h : s.op <;> simp [cleanupRecords]

theorem cleanup_link (s : State) : s.cleanup.link = cleanupLink s.op s.link := by
  unfold State.cleanup
  cases h : s.op <;> simp [cleanupLink]

/-- `raise E` as one record update. -/
theorem raiseErr_eq (s : State) (e : Code) :
    s.raiseErr e = { s with timerArmed := false, link := cleanupLink s.op s.link, op := .idle,
                            out := s.out ++ (cleanupRecords s.op ++ [.resp e .unit]) } := by
  obtain ⟨⟩ := s
  rename_i op _ _ _ _ _ _ _ _ _ _ _ _ _ _ _
  cases op <;> simp [State.raiseErr, State.cleanup, State.disarm, State.respond, State.chanRelease, State.setLink,
    State.log, cleanupLink, cleanupRecords]

/-! ### Composite operations as one record update -/

theorem startSession_sender_eq (s : State) :
    s.startSession .sender = { s with
      rx := s.rx.reset, txbuf := supFrame s.params s.params.aS s.params.cSet, txCount := 1, timerArmed := true,
      op := .openTxWaitUa, out := s.out ++ [.tx (supFrame s.params s.params.aS s.params.cSet)] } := rfl

theorem startSession_receiver_eq (s : State) :
    s.startSession .receiver = { s with rx := s.rx.reset, op := .openRxWaitSet } := rfl

theorem replyDisc_eq (s : State) :
    s.replyDisc = { s with
      txbuf := supFrame s.params s.params.aR s.params.cDisc, txCount := 1, timerArmed := true,
      op := .closeRxWaitUa, out := s.out ++ [.tx (supFrame s.params s.params.aR s.params.cDisc)] } := rfl

theorem startClose_sender_eq (s : State) :
    s.startClose .sender = { s with
      rx := s.rx.reset, txbuf := supFrame s.params s.params.aS s.params.cDisc, txCount := 1, timerArmed := true,
      op := .closeTxWaitDisc, out := s.out ++ [.tx (supFrame s.params s.params.aS s.params.cDisc)] } := rfl

theorem startClose_receiver_eq (s : State) :
    s.startClose .receiver
      = if s.discPending then s.parserReset.replyDisc
        else { s with rx := s.rx.reset, op := .closeRxWaitDisc } := rfl

theorem finishClose_eq (s : State) :
    s.finishClose = { s with
      link := .disconnected, op := .idle,
      out := s.out ++ [.chanRestore, .chanClose, .resp .ok (closeValue s)] } := by
  simp [State.finishClose, State.chanRelease, State.log, State.setLink, State.respond, closeValue]

theorem emitReply_eq (s : State) (k : FrameKind) :
    s.emitReply k = { s with out := s.out ++ [.tx (supFrame s.params s.params.aR (ctrl s.params k))] } := rfl

theorem deliver_eq (s : State) (pl : Bytes) :
    s.deliver pl = { s with
      nr := !s.nr, statBytes := s.statBytes + BitVec.ofNat 32 pl.length, op := .idle,
      out := s.out ++ [.tx (supFrame s.params s.params.aR (ctrl s.params (rrKind (!s.nr)))),
        .resp .ok (.payload pl)] } := by
  simp [State.deliver, State.emitReply, State.emit, State.log, State.toggleNr, State.countBytes, State.respond]

theorem retransmitOrFail_next {s t : State} (h : retransmitOrFail s = .next t) :
    s.cfgWritten = true ∧
    ((s.txCount < s.cfgMaxAttempts ∧ t = s.retransmit) ∨
     (s.cfgMaxAttempts ≤ s.txCount ∧ t = s.raiseErr .errAttemptsExhausted)) := by
  obtain ⟨hw, h⟩ := withMaxAttempts_next h
  refine ⟨hw, ?_⟩
  split at h
  · exact .inl ⟨‹_›, next_inj.1 h⟩
  · exact .inr ⟨by omega, next_inj.1 h⟩

/-! ### The host commands -/

theorem openConfigBad_iff (p : Params) (m t : U32) :
    openConfigBad p m t = true ↔ m.toNat < 1 ∨ p.maxAttemptsLimit < m.toNat ∨ t.toNat < 1 := by
  simp [openConfigBad, or_assoc]

theorem execHostOpen_next {role : Role} {m tm : U32} {dev baud : Bytes} {s t : State}
    (h : execHostOpen role m tm dev baud s = .next t) :
    s.op = .idle ∧
    ((s.link ≠ .disconnected ∧ t = s.respond .errAlreadyOpen .unit) ∨
     (s.link = .disconnected ∧ openConfigBad s.params m tm = true ∧ t = s.respond .errInvalidConfig .unit) ∨
     (s.link = .disconnected ∧ openConfigBad s.params m tm = false ∧ s.chanOk = true ∧
       t = ((s.askChanOpen dev baud).createSession role m tm).startSession role) ∨
     (s.link = .disconnected ∧ openConfigBad s.params m tm = false ∧ s.chanOk = false ∧
       t = (s.askChanOpen dev baud).respond .errChannel .unit)) := by
  obtain ⟨ho, h⟩ := whenIdle_next h
  refine ⟨ho, ?_⟩
  by_cases hl : s.link = .disconnected <;> cases hc : openConfigBad s.params m tm <;>
    cases hk : s.chanOk <;> simp only [hl, hc, hk] at h <;> simp_all

theorem execHostClose_next {c : Bit} {s t : State} (h : execHostClose c s = .next t) :
    s.op = .idle ∧
    ((s.link ≠ .connected ∧ t = s.respond .errNotOpen .unit) ∨
     (s.link = .connected ∧ s.cfgWritten = true ∧
       t = (s.latchClose c).startClose s.cfgRole)) := by
  obtain ⟨ho, h⟩ := whenIdle_next h
  refine ⟨ho, ?_⟩
  split_ifs at h
  · exact .inl ⟨‹_›, next_inj.1 h⟩
  · obtain ⟨hw, h⟩ := withRole_next h
    exact .inr ⟨by simp_all, hw, next_inj.1 h⟩

theorem execHostSend_next {pl : Bytes} {s t : State} (h : execHostSend pl s = .next t) :
    s.op = .idle ∧
    ((s.link ≠ .connected ∧ t = s.respond .errNotOpen .unit) ∨
     (s.link = .connected ∧ s.cfgWritten = true ∧ s.cfgRole ≠ .sender ∧ t = s.respond .errWrongRole .unit) ∨
     (s.link = .connected ∧ s.cfgWritten = true ∧ s.cfgRole = .sender ∧ sendPayloadBad s.params pl = true ∧
       t = s.respond .errInvalidPayload .unit) ∨
     (s.link = .connected ∧ s.cfgWritten = true ∧ s.cfgRole = .sender ∧ sendPayloadBad s.params pl = false ∧
       t = ((s.parserReset.setTxLen pl.length).transmitFirst
         (infoFrame s.params s.params.aS s.ns pl)).setOp .sendWaitAck)) := by
  obtain ⟨ho, h⟩ := whenIdle_next h
  refine ⟨ho, ?_⟩
  by_cases hl : s.link = .connected
  · simp only [hl, ne_eq, not_true_eq_false, if_false] at h
    obtain ⟨hw, h⟩ := withRole_next h
    cases hr : s.cfgRole <;> cases hc : sendPayloadBad s.params pl <;> simp_all
  · simp_all

theorem execHostReceive_next {s t : State} (h : execHostReceive s = .next t) :
    s.op = .idle ∧
    ((s.link ≠ .connected ∧ t = s.respond .errNotOpen .unit) ∨
     (s.link = .connected ∧ s.cfgWritten = true ∧ s.cfgRole ≠ .receiver ∧ t = s.respond .errWrongRole .unit) ∨
     (s.link = .connected ∧ s.cfgWritten = true ∧ s.cfgRole = .receiver ∧ s.discPending = true ∧
       t = s.respond .peerClosing .unit) ∨
     (s.link = .connected ∧ s.cfgWritten = true ∧ s.cfgRole = .receiver ∧ s.discPending = false ∧
       t = s.parserReset.setOp .recvWait)) := by
  obtain ⟨ho, h⟩ := whenIdle_next h
  refine ⟨ho, ?_⟩
  by_cases hl : s.link = .connected
  · simp only [hl, ne_eq, not_true_eq_false, if_false] at h
    obtain ⟨hw, h⟩ := withRole_next h
    cases hr : s.cfgRole <;> cases hc : s.discPending <;> simp_all
  · simp_all

/-! ### The frames: what each does in a wait, else the state is kept -/

theorem execSet_next {s t : State} (h : execSet s = .next t) :
    s.op ≠ .idle ∧
    (t = s ∨ (s.op = .openRxWaitSet ∧
      t = ((s.emit (supFrame s.params s.params.aR s.params.cUa)).setLink .connected).respond .ok .unit)) := by
  unfold execSet at h
  cases ho : s.op <;> simp only [ho] at h <;> simp_all

theorem execUa_next {s t : State} (h : execUa s = .next t) :
    s.op ≠ .idle ∧
    (t = s ∨ (s.op = .openTxWaitUa ∧ t = (s.disarm.setLink .connected).respond .ok .unit) ∨
     (s.op = .closeRxWaitUa ∧ t = s.disarm.finishClose)) := by
  unfold execUa at h
  cases ho : s.op <;> simp only [ho] at h <;> simp_all

theorem execDisc_next {s t : State} (h : execDisc s = .next t) :
    s.op ≠ .idle ∧
    (t = s ∨ (s.op = .recvWait ∧ t = s.setDiscPending.respond .peerClosing .unit) ∨
     (s.op = .closeTxWaitDisc ∧
       t = (s.disarm.emit (supFrame s.params s.params.aS s.params.cUa)).finishClose) ∨
     (s.op = .closeRxWaitDisc ∧ t = s.replyDisc) ∨
     (s.op = .closeRxWaitUa ∧ retransmitOrFail s = .next t)) := by
  unfold execDisc at h
  cases ho : s.op <;> simp only [ho] at h <;> simp_all

theorem ackReceived_next {m : Bit} {s t : State} (h : ackReceived m s = .next t) :
    s.op ≠ .idle ∧
    (t = s ∨ (s.op = .sendWaitAck ∧ (m = !s.ns) ∧
      t = (s.disarm.toggleNs.countBytes s.txLen).respond .ok (.bytesSent s.txLen))) := by
  unfold ackReceived at h
  cases ho : s.op <;> simp only [ho] at h <;> (try split_ifs at h) <;> simp_all

theorem rejReceived_next {s t : State} (h : rejReceived s = .next t) :
    s.op ≠ .idle ∧ (t = s ∨ (s.op = .sendWaitAck ∧ retransmitOrFail s = .next t)) := by
  unfold rejReceived at h
  cases ho : s.op <;> simp only [ho] at h <;> simp_all

theorem infoReceived_next {q : Bit} {pl : Bytes} {s t : State} (h : infoReceived q pl s = .next t) :
    s.op ≠ .idle ∧
    (t = s ∨ (s.op = .recvWait ∧ q = s.nr ∧ t = s.deliver pl) ∨
     (s.op = .recvWait ∧ q ≠ s.nr ∧ t = s.emitReply (rrKind s.nr))) := by
  unfold infoReceived at h
  cases ho : s.op <;> simp only [ho] at h <;> (try split_ifs at h) <;> simp_all

/-! ### The other signals and the expiry -/

theorem ckfailReceived_next {s t : State} (h : ckfailReceived s = .next t) :
    s.op ≠ .idle ∧
    (t = s ∨ (s.op = .recvWait ∧
      t = s.emit (supFrame s.params s.params.aR (ctrl s.params (rejKind s.nr))))) := by
  unfold ckfailReceived at h
  cases ho : s.op <;> simp only [ho] at h <;> simp_all

theorem overflowReceived_next {s t : State} (h : overflowReceived s = .next t) :
    s.op ≠ .idle ∧ t = s.raiseErr .errBufferOverflow := by
  unfold overflowReceived at h
  split_ifs at h
  exact ⟨‹_›, next_inj.1 h⟩

theorem execExpire_next {s t : State} (h : execExpire s = .next t) :
    s.timerArmed = true ∧ retransmitOrFail s.disarm = .next t := by
  unfold execExpire at h
  split_ifs at h
  exact ⟨‹_›, h⟩

/-- An enabled RX step: the byte taken, and what the parser and the signal's handler did. -/
theorem execRxByte_next {run : Instr → State → Result} {s t : State} (h : execRxByte run s = .next t) :
    s.op ≠ .idle ∧ s.cfgWritten = true ∧ ∃ b q r sig, s.chanRx = b :: q ∧
      rxStep s.params (peerAddr s.params s.cfgRole) b s.rx = (r, sig) ∧
      ((sig = none ∧ t = s.afterByte r q) ∨
       ∃ sg, sig = some sg ∧ handleSignal run sg (s.afterByte r q) = .next t) := by
  unfold execRxByte at h
  split_ifs at h with ho
  refine ⟨ho, ?_⟩
  split at h
  · cases h
  · rename_i b q hq
    obtain ⟨hw, h⟩ := withRole_next h
    refine ⟨hw, b, q, (rxStep s.params (peerAddr s.params s.cfgRole) b s.rx).1,
      (rxStep s.params (peerAddr s.params s.cfgRole) b s.rx).2, hq, rfl, ?_⟩
    split at h
    · rename_i r hr
      rw [hr]
      exact .inl ⟨rfl, next_inj.1 h⟩
    · rename_i r sg hr
      rw [hr]
      exact .inr ⟨sg, rfl, h⟩

end Sys2Proof.Machine
end

