-- ==== Sys2Proof/Laws/Step.lean ====
section
/-! SUPPORT. What one step can do, once for all later proofs. -/

namespace Sys2Proof.Machine

/-- Everything a step that answers a next state did: which input it took and what ran. -/
theorem step_next {s t : State} (h : step s = .next t) :
    s.params.legal = true ∧
    ((s.inputs = [] ∧ t = s) ∨
     (∃ w ok rest, s.inputs = .cmd w ok :: rest ∧
       exec (decodeHost w) (s.takeCommand rest ok) = .next t) ∨
     (∃ bs rest, s.inputs = .arrive bs :: rest ∧ t = s.takeArrival rest bs) ∨
     (∃ rest, s.inputs = .rxByte :: rest ∧ execRxByte exec (s.pop rest) = .next t) ∨
     (∃ rest, s.inputs = .expire :: rest ∧ execExpire (s.pop rest) = .next t)) := by
  unfold step at h
  split_ifs at h with hl
  refine ⟨hl, ?_⟩
  split at h
  · exact .inl ⟨‹_›, next_inj.1 h⟩
  · exact .inr (.inl ⟨_, _, _, ‹_›, h⟩)
  · exact .inr (.inr (.inl ⟨_, _, ‹_›, next_inj.1 h⟩))
  · exact .inr (.inr (.inr (.inl ⟨_, ‹_›, h⟩)))
  · exact .inr (.inr (.inr (.inr ⟨_, ‹_›, h⟩)))

/-- What a command word decodes to is a host command. -/
theorem decodeHost_cases (w : HostWord) :
    decodeHost w = .hostOpen (Role.ofBit w.role) w.maxAttempts w.timeout w.device w.baud ∨
    decodeHost w = .hostSend w.payload ∨ decodeHost w = .hostReceive ∨ decodeHost w = .hostClose w.collect := by
  unfold decodeHost
  split_ifs <;> simp

/-- Handling the signal of a frame is running its instruction. -/
theorem handleSignal_instr (run : Instr → State → Result) {sig : Signal} {i : Instr} (h : sig.instr? = some i)
    (s : State) : handleSignal run sig s = run i s := by
  cases sig <;> simp_all [Signal.instr?, handleSignal]

end Sys2Proof.Machine
end

