-- ==== Sys2Proof/Laws/Moves.lean ====
section
/-! SUPPORT. The moves of the core as inductive relations: everything a command, a signal, an expiry and a step can do,
so that a proof about every step is one case analysis over a few record updates. -/

namespace Sys2Proof.Machine

/-- What a host command does to an idle core. -/
inductive CommandMove (u : State) : Instr → State → Prop
  | refusedByCheck (i : Instr) (c : Code) : u.op = .idle → CommandMove u i (u.respond c .unit)
  | channelFailed (role : Role) (m tm : U32) (dev baud : Bytes) : u.op = .idle → u.link = .disconnected →
      CommandMove u (.hostOpen role m tm dev baud) ((u.askChanOpen dev baud).respond .errChannel .unit)
  | opened (role : Role) (m tm : U32) (dev baud : Bytes) : u.op = .idle → u.link = .disconnected →
      openConfigBad u.params m tm = false →
      CommandMove u (.hostOpen role m tm dev baud)
        (((u.askChanOpen dev baud).createSession role m tm).startSession role)
  | sending (pl : Bytes) : u.op = .idle → u.link = .connected → u.cfgWritten = true → u.cfgRole = .sender →
      sendPayloadBad u.params pl = false →
      CommandMove u (.hostSend pl) (((u.parserReset.setTxLen pl.length).transmitFirst
        (infoFrame u.params u.params.aS u.ns pl)).setOp .sendWaitAck)
  | receiving : u.op = .idle → u.link = .connected → u.cfgWritten = true → u.cfgRole = .receiver →
      u.discPending = false → CommandMove u .hostReceive (u.parserReset.setOp .recvWait)
  | closing (c : Bit) : u.op = .idle → u.link = .connected → u.cfgWritten = true →
      CommandMove u (.hostClose c) ((u.latchClose c).startClose u.cfgRole)

/-- A retransmission, or the failure when no attempt is left. -/
inductive RetryMove (u : State) : State → Prop
  | again : u.cfgWritten = true → u.txCount < u.cfgMaxAttempts → RetryMove u u.retransmit
  | exhausted : u.cfgWritten = true → u.cfgMaxAttempts ≤ u.txCount →
      RetryMove u (u.raiseErr .errAttemptsExhausted)

/-- What a parser signal does to a waiting core (spec/60_exceptions.md R412). -/
inductive SignalMove (u : State) : Signal → State → Prop
  | ignored (sg : Signal) : u.op ≠ .idle → SignalMove u sg u
  | accepted : u.op = .openRxWaitSet → SignalMove u (.sup .set)
      (((u.emit (supFrame u.params u.params.aR u.params.cUa)).setLink .connected).respond .ok .unit)
  | established : u.op = .openTxWaitUa → SignalMove u (.sup .ua)
      ((u.disarm.setLink .connected).respond .ok .unit)
  | closedByUa : u.op = .closeRxWaitUa → SignalMove u (.sup .ua) u.disarm.finishClose
  | closedByDisc : u.op = .closeTxWaitDisc → SignalMove u (.sup .disc)
      (u.disarm.emit (supFrame u.params u.params.aS u.params.cUa)).finishClose
  | peerCloses : u.op = .recvWait → SignalMove u (.sup .disc) (u.setDiscPending.respond .peerClosing .unit)
  | discAnswered : u.op = .closeRxWaitDisc → SignalMove u (.sup .disc) u.replyDisc
  | discRepeated (t : State) : u.op = .closeRxWaitUa → RetryMove u t → SignalMove u (.sup .disc) t
  | rejected (sg : Signal) (t : State) : u.op = .sendWaitAck → sg = .sup .rej0 ∨ sg = .sup .rej1 →
      RetryMove u t → SignalMove u sg t
  | acknowledged : u.op = .sendWaitAck → SignalMove u (.sup (if u.ns then .rr0 else .rr1))
      ((u.disarm.toggleNs.countBytes u.txLen).respond .ok (.bytesSent u.txLen))
  | delivered (pl : Bytes) : u.op = .recvWait → SignalMove u (.info u.nr pl) (u.deliver pl)
  | duplicate (q : Bit) (pl : Bytes) : u.op = .recvWait → q ≠ u.nr →
      SignalMove u (.info q pl) (u.emitReply (rrKind u.nr))
  | corrupted (q : Bit) : u.op = .recvWait →
      SignalMove u (.ckfail q) (u.emit (supFrame u.params u.params.aR (ctrl u.params (rejKind u.nr))))
  | overflowed : u.op ≠ .idle → SignalMove u .overflow (u.raiseErr .errBufferOverflow)

/-- What one step does. -/
inductive StepMove (s : State) : State → Prop
  | quiet : s.inputs = [] → StepMove s s
  | command (w : HostWord) (ok : Bit) (rest : List Input) (t : State) : s.inputs = .cmd w ok :: rest →
      CommandMove (s.takeCommand rest ok) (decodeHost w) t → StepMove s t
  | arrival (bs : Bytes) (rest : List Input) : s.inputs = .arrive bs :: rest →
      StepMove s (s.takeArrival rest bs)
  | silentByte (b : Byte) (q : Bytes) (rest : List Input) (r : ParserRegs) : s.inputs = .rxByte :: rest →
      s.op ≠ .idle → s.cfgWritten = true → s.chanRx = b :: q →
      rxStep s.params (peerAddr s.params s.cfgRole) b s.rx = (r, none) →
      StepMove s ((s.pop rest).afterByte r q)
  | signalByte (b : Byte) (q : Bytes) (rest : List Input) (r : ParserRegs) (sg : Signal) (t : State) :
      s.inputs = .rxByte :: rest → s.op ≠ .idle → s.cfgWritten = true → s.chanRx = b :: q →
      rxStep s.params (peerAddr s.params s.cfgRole) b s.rx = (r, some sg) →
      SignalMove ((s.pop rest).afterByte r q) sg t → StepMove s t
  | expiry (rest : List Input) (t : State) : s.inputs = .expire :: rest → s.timerArmed = true →
      RetryMove (s.pop rest).disarm t → StepMove s t

theorem retry_move {u t : State} (h : retransmitOrFail u = .next t) : RetryMove u t := by
  obtain ⟨hw, ⟨hc, rfl⟩ | ⟨hc, rfl⟩⟩ := retransmitOrFail_next h
  · exact .again hw hc
  · exact .exhausted hw hc

theorem command_move {u t : State} {w : HostWord} (h : exec (decodeHost w) u = .next t) :
    CommandMove u (decodeHost w) t := by
  rcases decodeHost_cases w with hd | hd | hd | hd <;> rw [hd] at h ⊢
  · obtain ⟨ho, h⟩ := execHostOpen_next h
    rcases h with ⟨-, rfl⟩ | ⟨-, -, rfl⟩ | ⟨hl, hc, -, rfl⟩ | ⟨hl, -, -, rfl⟩
    · exact .refusedByCheck _ _ ho
    · exact .refusedByCheck _ _ ho
    · exact .opened _ _ _ _ _ ho hl hc
    · exact .channelFailed _ _ _ _ _ ho hl
  · obtain ⟨ho, h⟩ := execHostSend_next h
    rcases h with ⟨-, rfl⟩ | ⟨-, -, -, rfl⟩ | ⟨-, -, -, -, rfl⟩ | ⟨hl, hw, hr, hb, rfl⟩
    · exact .refusedByCheck _ _ ho
    · exact .refusedByCheck _ _ ho
    · exact .refusedByCheck _ _ ho
    · exact .sending _ ho hl hw hr hb
  · obtain ⟨ho, h⟩ := execHostReceive_next h
    rcases h with ⟨-, rfl⟩ | ⟨-, -, -, rfl⟩ | ⟨-, -, -, -, rfl⟩ | ⟨hl, hw, hr, hd', rfl⟩
    · exact .refusedByCheck _ _ ho
    · exact .refusedByCheck _ _ ho
    · exact .refusedByCheck _ _ ho
    · exact .receiving ho hl hw hr hd'
  · obtain ⟨ho, h⟩ := execHostClose_next h
    rcases h with ⟨-, rfl⟩ | ⟨hl, hw, rfl⟩
    · exact .refusedByCheck _ _ ho
    · exact .closing _ ho hl hw

theorem ack_move {u t : State} (m : Bit) (h : ackReceived m u = .next t) :
    SignalMove u (.sup (if m then .rr1 else .rr0)) t := by
  obtain ⟨ho, rfl | ⟨ho', hm, rfl⟩⟩ := ackReceived_next h
  · exact .ignored _ ho
  · have : (if m then SupKind.rr1 else .rr0) = if u.ns then .rr0 else .rr1 := by subst hm; cases u.ns <;> rfl
    rw [this]
    exact .acknowledged ho'

theorem info_move {u t : State} (q : Bit) (pl : Bytes) (h : infoReceived q pl u = .next t) :
    SignalMove u (.info q pl) t := by
  obtain ⟨ho, rfl | ⟨ho', rfl, rfl⟩ | ⟨ho', hq, rfl⟩⟩ := infoReceived_next h
  · exact .ignored _ ho
  · exact .delivered _ ho'
  · exact .duplicate _ _ ho' hq

theorem signal_move {u t : State} {sg : Signal} (h : handleSignal exec sg u = .next t) : SignalMove u sg t := by
  cases sg with
  | sup k =>
    cases k with
    | set =>
      obtain ⟨ho, rfl | ⟨ho', rfl⟩⟩ := execSet_next h
      · exact .ignored _ ho
      · exact .accepted ho'
    | ua =>
      obtain ⟨ho, rfl | ⟨ho', rfl⟩ | ⟨ho', rfl⟩⟩ := execUa_next h
      · exact .ignored _ ho
      · exact .established ho'
      · exact .closedByUa ho'
    | disc =>
      obtain ⟨ho, rfl | ⟨ho', rfl⟩ | ⟨ho', rfl⟩ | ⟨ho', rfl⟩ | ⟨ho', h'⟩⟩ := execDisc_next h
      · exact .ignored _ ho
      · exact .peerCloses ho'
      · exact .closedByDisc ho'
      · exact .discAnswered ho'
      · exact .discRepeated _ ho' (retry_move h')
    | rr0 => exact ack_move false h
    | rr1 => exact ack_move true h
    | rej0 =>
      obtain ⟨ho, rfl | ⟨ho', h'⟩⟩ := rejReceived_next h
      · exact .ignored _ ho
      · exact .rejected _ _ ho' (.inl rfl) (retry_move h')
    | rej1 =>
      obtain ⟨ho, rfl | ⟨ho', h'⟩⟩ := rejReceived_next h
      · exact .ignored _ ho
      · exact .rejected _ _ ho' (.inr rfl) (retry_move h')
  | info q pl => cases q <;> exact info_move _ pl h
  | ckfail q =>
    obtain ⟨ho, rfl | ⟨ho', rfl⟩⟩ := ckfailReceived_next h
    · exact .ignored _ ho
    · exact .corrupted _ ho'
  | overflow =>
    obtain ⟨ho, rfl⟩ := overflowReceived_next h
    exact .overflowed ho

/-- Every step that answers a next state is one of these moves. -/
theorem step_move {s t : State} (h : step s = .next t) : s.params.legal = true ∧ StepMove s t := by
  obtain ⟨hl, h⟩ := step_next h
  refine ⟨hl, ?_⟩
  rcases h with ⟨hi, rfl⟩ | ⟨w, ok, rest, hi, h⟩ | ⟨bs, rest, hi, rfl⟩ | ⟨rest, hi, h⟩ | ⟨rest, hi, h⟩
  · exact .quiet hi
  · exact .command _ _ _ _ hi (command_move h)
  · exact .arrival _ _ hi
  · obtain ⟨ho, hw, b, q, r, sig, hq, hr, ⟨rfl, rfl⟩ | ⟨sg, rfl, h⟩⟩ := execRxByte_next h
    · exact .silentByte _ _ _ _ hi ho hw hq hr
    · exact .signalByte _ _ _ _ _ _ hi ho hw hq hr (signal_move h)
  · obtain ⟨ha, h⟩ := execExpire_next h
    exact .expiry _ _ hi ha (retry_move h)

end Sys2Proof.Machine
end

