-- ==== Sys2Proof/Laws/PerInstr.lean ====
section
/-! SUPPORT. The family FrameShape of statements made for every instruction: what a frame's bytes look like. -/

namespace Sys2Proof.Laws.FrameShape

open Sys2Proof.Machine

/-- A frame instruction's bytes begin and end with FLAG and are at least five (spec/30_encoding.md R100, R101, R102); a
host command is no frame. -/
def Statement (i : Instr) : Prop :=
  ∀ (p : Params) (a : Byte),
    (frameBytes p a i = none ↔ frameKind? i = none) ∧
    ∀ bs, frameBytes p a i = some bs →
      ∃ body, bs = p.flag :: (body ++ [p.flag]) ∧ 3 ≤ body.length

/-- A supervisory frame has the shape. -/
theorem supervisory (p : Params) (a c : Byte) :
    ∃ body, supFrame p a c = p.flag :: (body ++ [p.flag]) ∧ 3 ≤ body.length :=
  ⟨[a, c, a ^^^ c], rfl, by simp⟩

/-- An information frame has the shape. -/
theorem information (p : Params) (a : Byte) (q : Bit) (pl : Bytes) :
    ∃ body, infoFrame p a q pl = p.flag :: (body ++ [p.flag]) ∧ 3 ≤ body.length :=
  ⟨a :: ctrl p (infoKind q) :: (a ^^^ ctrl p (infoKind q)) :: stuff p (pl ++ [xorAll pl]),
    by simp [infoFrame, header], by simp⟩

theorem set : Statement .set := fun p a =>
  ⟨by simp [frameBytes, encode, frameKind?], fun _ h => Option.some.inj h ▸ supervisory p a _⟩

theorem ua : Statement .ua := fun p a =>
  ⟨by simp [frameBytes, encode, frameKind?], fun _ h => Option.some.inj h ▸ supervisory p a _⟩

theorem disc : Statement .disc := fun p a =>
  ⟨by simp [frameBytes, encode, frameKind?], fun _ h => Option.some.inj h ▸ supervisory p a _⟩

theorem rr0 : Statement .rr0 := fun p a =>
  ⟨by simp [frameBytes, encode, frameKind?], fun _ h => Option.some.inj h ▸ supervisory p a _⟩

theorem rr1 : Statement .rr1 := fun p a =>
  ⟨by simp [frameBytes, encode, frameKind?], fun _ h => Option.some.inj h ▸ supervisory p a _⟩

theorem rej0 : Statement .rej0 := fun p a =>
  ⟨by simp [frameBytes, encode, frameKind?], fun _ h => Option.some.inj h ▸ supervisory p a _⟩

theorem rej1 : Statement .rej1 := fun p a =>
  ⟨by simp [frameBytes, encode, frameKind?], fun _ h => Option.some.inj h ▸ supervisory p a _⟩

theorem i0 (payload : Bytes) : Statement (.i0 payload) := fun p a =>
  ⟨by simp [frameBytes, encode, frameKind?], fun _ h => Option.some.inj h ▸ information p a _ _⟩

theorem i1 (payload : Bytes) : Statement (.i1 payload) := fun p a =>
  ⟨by simp [frameBytes, encode, frameKind?], fun _ h => Option.some.inj h ▸ information p a _ _⟩

theorem hostOpen (role : Role) (maxAttempts timeout : U32) (device baud : Bytes) :
    Statement (.hostOpen role maxAttempts timeout device baud) := fun _ _ =>
  ⟨by simp [frameBytes, encode, frameKind?], fun _ h => by simp [frameBytes, encode] at h⟩

theorem hostSend (payload : Bytes) : Statement (.hostSend payload) := fun _ _ =>
  ⟨by simp [frameBytes, encode, frameKind?], fun _ h => by simp [frameBytes, encode] at h⟩

theorem hostReceive : Statement .hostReceive := fun _ _ =>
  ⟨by simp [frameBytes, encode, frameKind?], fun _ h => by simp [frameBytes, encode] at h⟩

theorem hostClose (collect : Bit) : Statement (.hostClose collect) := fun _ _ =>
  ⟨by simp [frameBytes, encode, frameKind?], fun _ h => by simp [frameBytes, encode] at h⟩

end Sys2Proof.Laws.FrameShape
end

