-- ==== Sys2Proof/Laws/Receiver.lean ====
section
/-! SUPPORT. The parser's lemmas: feeding a byte string, one lemma per state of a frame in progress. -/

namespace Sys2Proof

/-! ### Feeding -/

@[simp] theorem rxFeed_nil (p : Params) (e : Byte) (r : ParserRegs) : rxFeed p e r [] = (r, []) := rfl

theorem rxFeed_cons (p : Params) (e : Byte) (r : ParserRegs) (b : Byte) (bs : Bytes) :
    rxFeed p e r (b :: bs) =
      ((rxFeed p e (rxStep p e b r).1 bs).1, (rxStep p e b r).2 :: (rxFeed p e (rxStep p e b r).1 bs).2) := rfl

theorem rxFeed_append (p : Params) (e : Byte) (r : ParserRegs) (xs ys : Bytes) :
    rxFeed p e r (xs ++ ys) =
      ((rxFeed p e (rxFeed p e r xs).1 ys).1, (rxFeed p e r xs).2 ++ (rxFeed p e (rxFeed p e r xs).1 ys).2) := by
  induction xs generalizing r with
  | nil => simp
  | cons x xs ih => simp [rxFeed_cons, ih]

/-! ### Kinds -/

@[simp] theorem isInfo_infoKind (q : Bit) : (infoKind q).isInfo = true := by cases q <;> rfl

@[simp] theorem sup?_infoKind (q : Bit) : (infoKind q).sup? = none := by cases q <;> rfl

@[simp] theorem seq_infoKind (q : Bit) : (infoKind q).seq = q := by cases q <;> rfl

@[simp] theorem sup?_kind (k : SupKind) : k.kind.sup? = some k := by cases k <;> rfl

theorem isInfo_iff (k : FrameKind) : k.isInfo = true ↔ k.sup? = none := by cases k <;> simp [FrameKind.isInfo]

/-! ### A header (spec/41_receiver_fsm.md R202, R205, R207, R210) -/

/-- The four header bytes of a frame from the expected address take the parser from START to HEADER_OK. -/
theorem rxFeed_header {p : Params} (h : p.legal = true) {e : Byte} (he : e = p.aS ∨ e = p.aR) (k : FrameKind)
    {r : ParserRegs} (hr : r.state = .start) :
    rxFeed p e r (header p e (ctrl p k))
      = ({ state := .headerOk, ctrl := k, buf := [] }, [none, none, none, none]) := by
  have ha := legal_addr_ne_flag h he
  simp [header, rxFeed_cons, rxStep, hr, ha, ctrlDecode_ctrl h]

/-! ### The body of an information frame (R216 to R222) -/

/-- The parser may take a body byte: in READING, or in HEADER_OK of an information frame. -/
def takesBody (r : ParserRegs) : Prop := r.state = .reading ∨ (r.state = .headerOk ∧ r.ctrl.isInfo = true)

theorem rxStep_body {p : Params} {e b : Byte} {r : ParserRegs} (h : takesBody r) :
    rxStep p e b r = rxReading p b r := by
  rcases h with h | ⟨h, hi⟩
  · simp [rxStep, h]
  · rw [isInfo_iff] at hi
    simp [rxStep, h, hi]

theorem rxStore_room {p : Params} {v : Byte} {r : ParserRegs} (h : r.buf.length < p.rxBufCap) :
    rxStore p v r = ({ r with state := .reading, buf := r.buf ++ [v] }, none) := by
  simp [rxStore, Nat.ne_of_lt h]

/-- One stuffed byte is stored as the byte it stands for. -/
theorem rxFeed_stuffByte {p : Params} (hp : p.legal = true) (e b : Byte) {r : ParserRegs} (h : takesBody r)
    (hroom : r.buf.length < p.rxBufCap) :
    rxFeed p e r (stuffByte p b)
      = ({ r with state := .reading, buf := r.buf ++ [b] }, List.replicate (stuffByte p b).length none) := by
  have h1 := legal_flag_ne_esc hp
  have hf : escFollowEsc ≠ escFollowFlag := by decide
  unfold stuffByte
  split_ifs with c1 c2
  · subst c1
    rw [rxFeed_cons, rxStep_body h]
    simp [rxFeed_cons, rxReading, rxStep, rxEscape, rxStore, Nat.ne_of_lt hroom, List.replicate]
  · subst c2
    rw [rxFeed_cons, rxStep_body h]
    simp [rxFeed_cons, rxReading, rxStep, rxEscape, rxStore, Nat.ne_of_lt hroom, List.replicate, hf]
  · rw [rxFeed_cons, rxStep_body h]
    simp [rxReading, c1, c2, rxStore, Nat.ne_of_lt hroom]

/-- A stuffed region is stored destuffed, as long as it fits. -/
theorem rxFeed_stuff {p : Params} (hp : p.legal = true) (e : Byte) (xs : Bytes) {r : ParserRegs} (h : takesBody r)
    (hroom : r.buf.length + xs.length ≤ p.rxBufCap) (hne : xs ≠ []) :
    rxFeed p e r (stuff p xs)
      = ({ r with state := .reading, buf := r.buf ++ xs }, List.replicate (stuff p xs).length none) := by
  induction xs generalizing r with
  | nil => exact absurd rfl hne
  | cons b xs ih =>
    have h0 : r.buf.length < p.rxBufCap := by simp at hroom; omega
    rw [stuff_cons, rxFeed_append, rxFeed_stuffByte hp e b h h0]
    by_cases hx : xs = []
    · subst hx; simp
    · have h1 : takesBody { r with state := .reading, buf := r.buf ++ [b] } := .inl rfl
      rw [ih h1 (by simp at hroom ⊢; omega) hx]
      simp [List.replicate_append_replicate]

/-- The header and the stuffed payload of an information frame are silent and leave a parser that takes body bytes and
holds the payload. -/
theorem rxFeed_payload {p : Params} (hp : p.legal = true) {e : Byte} (he : e = p.aS ∨ e = p.aR) (q : Bit)
    (pl : Bytes) {r : ParserRegs} (hr : r.state = .start) (hroom : pl.length ≤ p.rxBufCap) :
    ∃ n r', rxFeed p e r (header p e (ctrl p (infoKind q)) ++ stuff p pl) = (r', List.replicate n none) ∧
      takesBody r' ∧ r'.ctrl = infoKind q ∧ r'.buf = pl := by
  rw [rxFeed_append, rxFeed_header hp he _ hr]
  by_cases hpl : pl = []
  · subst hpl
    exact ⟨4, { state := .headerOk, ctrl := infoKind q, buf := [] }, rfl, .inr ⟨rfl, by simp⟩, rfl, rfl⟩
  · refine ⟨4 + (stuff p pl).length, { state := .reading, ctrl := infoKind q, buf := pl }, ?_, .inl rfl, rfl, rfl⟩
    rw [rxFeed_stuff hp e pl (.inr ⟨rfl, by simp⟩) (by simpa using hroom) hpl]
    simp [List.replicate_succ, Nat.add_comm 4]

/-- The closing FLAG of a body that holds a payload and a checksum byte (R218). -/
theorem rxStep_close {p : Params} (hp : p.legal = true) (e : Byte) {r : ParserRegs} (h : r.state = .reading)
    {pl : Bytes} {chk : Byte} (hb : r.buf = pl ++ [chk]) :
    rxStep p e p.flag r = ({ r with state := .start, buf := [] }, some (checkBody r.ctrl.seq pl chk)) := by
  rw [rxStep_body (.inl h)]
  simp [rxReading, legal_flag_ne_esc hp, hb]

/-! ### The byte that gives the signal -/

/-- A byte string whose one signal comes last: all bytes but the last are silent, and the last gives the signal. -/
theorem rxFeed_last {p : Params} {e : Byte} {bs : Bytes} {r r' : ParserRegs} {n : Nat} {sg : Signal}
    (h : rxFeed p e r bs = (r', List.replicate n none ++ [some sg])) :
    ∃ cs c r1, bs = cs ++ [c] ∧ rxFeed p e r cs = (r1, List.replicate cs.length none) ∧
      rxStep p e c r1 = (r', some sg) := by
  induction bs generalizing r n with
  | nil => simp at h
  | cons b bs ih =>
    rw [rxFeed_cons] at h
    cases n with
    | zero =>
      simp only [List.replicate_zero, List.nil_append, Prod.mk.injEq, List.cons.injEq] at h
      obtain ⟨h0, h1, h2⟩ := h
      have hbs : bs = [] := by
        cases bs with
        | nil => rfl
        | cons => simp [rxFeed_cons] at h2
      subst hbs
      exact ⟨[], b, r, rfl, rfl, Prod.ext h0 h1⟩
    | succ n =>
      simp only [List.replicate_succ, List.cons_append, Prod.mk.injEq, List.cons.injEq] at h
      obtain ⟨h0, h1, h2⟩ := h
      obtain ⟨cs, c, r1, rfl, h3, h4⟩ := ih (Prod.ext h0 h2)
      exact ⟨b :: cs, c, r1, rfl, by rw [rxFeed_cons, h3, h1]; rfl, h4⟩

end Sys2Proof
end

