-- ==== Sys2Proof/Laws/Run.lean ====
section
/-! SUPPORT. Runs of several steps: one step and then the rest, and a run that reads bytes the parser takes silently. -/

namespace Sys2Proof.Machine

@[simp] theorem run_zero (s : State) : core.run 0 s = .next s := rfl

/-- A first step that answers a next state, and the run from there. -/
theorem run_succ {s t : State} (k : Nat) (h : step s = .next t) : core.run (k + 1) s = core.run k t := by
  have : core.step s = .next t := h
  simp only [Host.Core.run, this]

/-- The last step of a run is a step. -/
theorem run_one (s : State) : core.run 1 s = step s := by
  simp only [Host.Core.run]
  cases h : core.step s with
  | next t => exact h.symm
  | fault r => exact h.symm
  | refused r => exact h.symm

/-- A run in two parts. -/
theorem run_add {s t : State} (j k : Nat) (h : core.run j s = .next t) :
    core.run (j + k) s = core.run k t := by
  induction j generalizing s with
  | zero => rw [run_zero] at h; rw [next_inj.1 h]; simp
  | succ j ih =>
    rw [Nat.add_right_comm]
    simp only [Host.Core.run] at h ⊢
    cases hs : core.step s with
    | next u => rw [hs] at h; exact ih h
    | fault r => rw [hs] at h; cases h
    | refused r => rw [hs] at h; cases h

/-- Bytes that give no signal are read one by one and only move the parser. -/
theorem run_silent {s : State} (bs q : Bytes) (rest : List Input) {r : ParserRegs}
    (hl : s.params.legal = true) (ho : s.op ≠ .idle) (hw : s.cfgWritten = true) (hq : s.chanRx = bs ++ q)
    (hi : s.inputs = List.replicate bs.length .rxByte ++ rest)
    (hf : rxFeed s.params (peerAddr s.params s.cfgRole) s.rx bs = (r, List.replicate bs.length none)) :
    core.run bs.length s = .next { s with rx := r, chanRx := q, inputs := rest } := by
  induction bs generalizing s with
  | nil =>
    simp only [rxFeed_nil, Prod.mk.injEq] at hf
    simp only [List.nil_append, List.length_nil, List.replicate_zero] at hq hi
    obtain ⟨rfl, -⟩ := hf
    subst hq hi
    rfl
  | cons b bs ih =>
    rw [rxFeed_cons] at hf
    simp only [List.length_cons, List.replicate_succ, Prod.mk.injEq, List.cons.injEq] at hf
    obtain ⟨h1, h2, h3⟩ := hf
    have hr : rxStep s.params (peerAddr s.params s.cfgRole) b s.rx
        = ((rxStep s.params (peerAddr s.params s.cfgRole) b s.rx).1, none) := by rw [← h2]
    simp only [List.length_cons, List.replicate_succ, List.cons_append] at hi hq
    have hstep : step s = .next { s with
        rx := (rxStep s.params (peerAddr s.params s.cfgRole) b s.rx).1, chanRx := bs ++ q,
        inputs := List.replicate bs.length .rxByte ++ rest } := by
      simp only [step, hl, if_true, hi, execRxByte, State.pop, hq, withRole, hw]
      rw [if_neg ho, hr]
      rfl
    rw [List.length_cons, run_succ _ hstep]
    exact ih hl ho hw rfl rfl (Prod.ext h1 h3)

/-- Bytes whose one signal comes last run that signal's handler. -/
theorem run_signal {s : State} {bs q : Bytes} {rest : List Input} {r : ParserRegs} {n : Nat} {sg : Signal}
    (hl : s.params.legal = true) (ho : s.op ≠ .idle) (hw : s.cfgWritten = true)
    (hf : rxFeed s.params (peerAddr s.params s.cfgRole) s.rx bs = (r, List.replicate n none ++ [some sg]))
    (hq : s.chanRx = bs ++ q) (hi : s.inputs = List.replicate bs.length .rxByte ++ rest) :
    core.run bs.length s = handleSignal exec sg { s with rx := r, chanRx := q, inputs := rest } := by
  obtain ⟨cs, c, r1, rfl, h3, h4⟩ := rxFeed_last hf
  have := run_silent cs ([c] ++ q) (.rxByte :: rest) hl ho hw (by simpa using hq)
    (by rw [hi, List.length_append, ← List.replicate_append_replicate]; simp) h3
  rw [List.length_append, run_add _ _ this, List.length_singleton, run_one]
  simp only [step, hl, if_true, execRxByte, State.pop, withRole, hw, List.cons_append, List.nil_append]
  rw [if_neg ho, h4]
  rfl

end Sys2Proof.Machine
end

