-- ==== Sys2Proof/Tests/Slice0.lean ====
section
/-! SUPPORT. Tests of one step each, with results taken from spec/95_test_vectors.md (the default profile) or written out
from the encodings of spec/30_encoding.md; the well-formedness smoke test; and for every statement with hypotheses a
witness that meets them. -/

namespace Sys2Proof.Tests

open Sys2Proof.Machine

/-! ### Helpers -/

/-- The next state an outcome holds. -/
def next? (r : Result) : Option State :=
  match r with
  | .next s => some s
  | .fault _ => none
  | .refused _ => none

/-- The payload "hello". -/
def hello : Bytes := [0x68, 0x65, 0x6C, 0x6C, 0x6F]

/-- I0@A_S carrying "hello" (95_test_vectors.md V2.2). -/
def helloFrame : Bytes := [0x7E, 0x03, 0x00, 0x03, 0x68, 0x65, 0x6C, 0x6C, 0x6F, 0x62, 0x7E]

/-- A connected Sender, M = 3, idle. -/
def sender : State :=
  { State.reset with cfgWritten := true, cfgRole := .sender, cfgMaxAttempts := 3, cfgTimeout := 3, link := .connected }

/-- A connected Receiver, M = 3, idle. -/
def receiver : State :=
  { State.reset with cfgWritten := true, cfgRole := .receiver, cfgMaxAttempts := 3, cfgTimeout := 3, link := .connected }

/-- A Sender that waits for the acknowledgement of "hello" (V6, Sender rows). -/
def sending : State :=
  { sender with
    op := .sendWaitAck, txbuf := helloFrame, txLen := 5, txCount := 1, timerArmed := true, out := [.tx helloFrame] }

/-- A Receiver in `receive` (V6, Receiver rows). -/
def receiving : State := { receiver with op := .recvWait }

/-- A state in a given wait, link and role. -/
def waiting (o : Op) (l : Link) (role : Role) : State :=
  { State.reset with
    cfgWritten := true, cfgRole := role, cfgMaxAttempts := 3, cfgTimeout := 3, link := l, op := o,
    timerArmed := o.timed, txCount := 1 }

/-- Parser registers. -/
def regs (st : RxState) (k : FrameKind) (buf : Bytes) : ParserRegs := { state := st, ctrl := k, buf := buf }

/-- The default profile with a receive buffer of one byte. -/
def tiny : Params := { Params.default with maxPayload := 0, rxBufCap := 1 }

/-- The default profile with at most five attempts. -/
def fewAttempts : Params := { Params.default with maxAttemptsLimit := 5 }

/-! ### Well-formedness and legality (30_encoding.md R104; V0) -/

theorem test_wf_refuses_long_payload : (Instr.i0 [0x00, 0x00]).wf tiny = false := by decide
theorem test_wf_refuses_long_payload_i1 : (Instr.i1 [0x00, 0x00]).wf tiny = false := by decide
theorem test_wf_default_boundary :
    (Instr.i0 (List.replicate 1000 0x41)).wf Params.default = true ∧
    (Instr.i0 (List.replicate 1001 0x41)).wf Params.default = false := by
  simp only [Instr.wf, payloadFits, List.length_replicate]
  decide

theorem test_default_legal : Params.default.legal = true := by decide
theorem test_profileB_legal : Params.profileB.legal = true := by decide
theorem test_k1_refused : ({ Params.default with esc := 0x7E } : Params).k1 = false := by decide
theorem test_k2_refused : ({ Params.default with cUa := 0x7D } : Params).k2 = false := by decide
theorem test_k3_refused : ({ Params.default with cDisc := 0x7F } : Params).k3 = false := by decide
theorem test_k4_refused : ({ Params.default with cUa := 0x03 } : Params).k4 = false := by decide
theorem test_k5_refused : ({ Params.default with aR := 0x03 } : Params).k5 = false := by decide
theorem test_k6_refused : ({ Params.default with cRr1 := 0x84 } : Params).k6 = false := by decide
theorem test_k7_refused : ({ Params.default with flag := 0x5E } : Params).k7 = false := by decide
theorem test_cap_refused : ({ Params.default with rxBufCap := 1000 } : Params).capOk = false := by decide
theorem test_illegal_profiles_refused :
    ({ Params.default with esc := 0x7E } : Params).legal = false ∧
    ({ Params.default with cUa := 0x7D } : Params).legal = false ∧
    ({ Params.default with cDisc := 0x7F } : Params).legal = false ∧
    ({ Params.default with cUa := 0x03 } : Params).legal = false ∧
    ({ Params.default with aR := 0x03 } : Params).legal = false ∧
    ({ Params.default with cRr1 := 0x84 } : Params).legal = false ∧
    ({ Params.default with flag := 0x5E } : Params).legal = false ∧
    ({ Params.default with rxBufCap := 1000 } : Params).legal = false := by decide

/-! ### Decoding: words written out from the encodings (V2.4, V2.2, V4; R120, R121) -/

theorem test_decode_supervisory :
    decode .default 0x03 (.channel [0x7E, 0x03, 0x03, 0x00, 0x7E]) = .ok .set ∧
    decode .default 0x01 (.channel [0x7E, 0x01, 0x07, 0x06, 0x7E]) = .ok .ua ∧
    decode .default 0x03 (.channel [0x7E, 0x03, 0x0B, 0x08, 0x7E]) = .ok .disc ∧
    decode .default 0x01 (.channel [0x7E, 0x01, 0x05, 0x04, 0x7E]) = .ok .rr0 ∧
    decode .default 0x01 (.channel [0x7E, 0x01, 0x85, 0x84, 0x7E]) = .ok .rr1 ∧
    decode .default 0x01 (.channel [0x7E, 0x01, 0x01, 0x00, 0x7E]) = .ok .rej0 ∧
    decode .default 0x01 (.channel [0x7E, 0x01, 0x81, 0x80, 0x7E]) = .ok .rej1 := by decide

theorem test_decode_information :
    decode .default 0x03 (.channel helloFrame) = .ok (.i0 hello) ∧
    decode .default 0x03 (.channel [0x7E, 0x03, 0x40, 0x43, 0x68, 0x69, 0x01, 0x7E]) = .ok (.i1 [0x68, 0x69]) ∧
    decode .default 0x03 (.channel [0x7E, 0x03, 0x00, 0x03, 0x7D, 0x5E, 0x7D, 0x5E, 0x7E]) = .ok (.i0 [0x7E]) ∧
    decode .default 0x03 (.channel [0x7E, 0x03, 0x40, 0x43, 0x7D, 0x5D, 0x5E, 0x23, 0x7E])
      = .ok (.i1 [0x7D, 0x5E]) := by decide

theorem test_decode_host :
    decode .default 0x03 (.host { HostWord.bare 0b00 with
      role := true, maxAttempts := 3, timeout := 7, device := [0x61], baud := [0x62] }) = .ok (.hostOpen .receiver 3 7 [0x61] [0x62]) ∧
    decode .default 0x03 (.host { HostWord.bare 0b01 with payload := hello }) = .ok (.hostSend hello) ∧
    decode .default 0x03 (.host (HostWord.bare 0b10)) = .ok .hostReceive ∧
    decode .default 0x03 (.host { HostWord.bare 0b11 with collect := true }) = .ok (.hostClose true) := by decide

theorem test_decode_profileB :
    decode .profileB 0x01 (.channel [0x7E, 0x01, 0xAB, 0xAA, 0x7E]) = .ok .rr1 ∧
    decode .profileB 0x03 (.channel [0x7E, 0x03, 0x80, 0x83, 0x68, 0x65, 0x6C, 0x6C, 0x6F, 0x62, 0x7E])
      = .ok (.i1 hello) := by decide

theorem test_decode_rejects :
    decode .default 0x03 (.channel [0x7E, 0x01, 0x03, 0x02, 0x7E]) = .reject (.noFrame .flagSeen) ∧
    decode .default 0x03 (.channel [0x7E, 0x03, 0x45, 0x46, 0x7E]) = .reject (.noFrame .flagSeen) ∧
    decode .default 0x03 (.channel [0x7E, 0x03, 0x03, 0x00, 0x00]) = .reject (.noFrame .start) ∧
    decode .default 0x03 (.channel [0x7E, 0x03, 0x00, 0x03, 0x68, 0x63, 0x7E]) = .reject .checksumFailed ∧
    decode tiny 0x03 (.channel [0x7E, 0x03, 0x00, 0x03, 0x41, 0x41, 0x7E]) = .reject .bufferOverflow ∧
    decode .default 0x03 (.channel [0x7E, 0x03, 0x03, 0x00, 0x7E, 0x7E]) = .reject .trailingBytes := by decide

/-- V2.1, V2.2. -/
theorem test_codec :
    xorAll hello = 0x62 ∧ xorAll [0x7E, 0x7D] = 0x03 ∧ xorAll [0x41, 0x3F] = 0x7E ∧
    stuff .default [0x7E, 0x41, 0x7D] = [0x7D, 0x5E, 0x41, 0x7D, 0x5D] ∧
    infoFrame .default 0x03 false hello = helloFrame ∧
    infoFrame .default 0x03 true [0x41, 0x3F] = [0x7E, 0x03, 0x40, 0x43, 0x41, 0x3F, 0x7D, 0x5E, 0x7E] ∧
    infoFrame .default 0x03 false [] = [0x7E, 0x03, 0x00, 0x03, 0x00, 0x7E] ∧
    supFrame .default 0x01 0x0B = [0x7E, 0x01, 0x0B, 0x0A, 0x7E] := by decide

/-- V3. -/
theorem test_ctrl_decode_none :
    [0x45, 0x41, 0x80, 0xC0, 0x04, 0x7E, 0x7D, 0xFF].map (ctrlDecode .default)
      = List.replicate 8 none := by decide

/-! ### The parser (V4): signals and end state -/

/-- The signals and the resting state of a feed from START. -/
def feed (e : Byte) (bs : Bytes) : List Signal × RxState :=
  let (r, sigs) := rxFeed .default e .fresh bs
  (sigs.filterMap id, r.state)

theorem test_parser_resync :
    feed 0x03 [0x7E, 0x03, 0x03, 0x7E, 0x03, 0x03, 0x00, 0x7E] = ([.sup .set], .start) ∧
    feed 0x03 [0x7E, 0x03, 0x7E, 0x03, 0x03, 0x00, 0x7E] = ([.sup .set], .start) ∧
    feed 0x03 [0x7E, 0x03, 0x03, 0x00, 0x7E, 0x03, 0x07, 0x04, 0x7E] = ([.sup .set], .flagSeen) ∧
    feed 0x01 [0x7E, 0x03, 0x07, 0x04, 0x7E] = ([], .flagSeen) := by decide

theorem test_parser_failures :
    feed 0x03 [0x7E, 0x03, 0x40, 0x43, 0x7E] = ([.ckfail true], .start) ∧
    feed 0x03 [0x7E, 0x03, 0x00, 0x03, 0x41, 0x7D, 0x7E, 0x03, 0x03, 0x00, 0x7E] = ([.ckfail false], .flagSeen) ∧
    feed 0x03 [0x7E, 0x03, 0x00, 0x03, 0x41, 0x7D, 0x41, 0x7E] = ([.ckfail false], .flagSeen) ∧
    feed 0x03 [0x7E, 0x03, 0x00, 0x03, 0x7F, 0x7E, 0x7E] = ([.ckfail false], .flagSeen) ∧
    feed 0x03 [0x7E, 0x03, 0x00, 0x03, 0x41, 0x41, 0x7E, 0x7F, 0x7E] = ([.info false [0x41]], .flagSeen) := by decide

/-! ### One step per instruction -/

/-- V5.6 and V6.17: SET in `open` and in `receive`. -/
theorem test_set :
    (next? (exec .set (waiting .openRxWaitSet .connecting .receiver))).map (fun t => (t.out, t.link, t.op))
      = some ([.tx [0x7E, 0x01, 0x07, 0x06, 0x7E], .resp .ok .unit], .connected, .idle) ∧
    next? (exec .set receiving) = some receiving := by decide

/-- V5.2 and V5.12: UA ends the Sender's `open` and the Receiver's `close`. -/
theorem test_ua :
    (next? (exec .ua (waiting .openTxWaitUa .connecting .sender))).map (fun t => (t.out, t.link, t.timerArmed))
      = some ([.resp .ok .unit], .connected, false) ∧
    (next? (exec .ua (waiting .closeRxWaitUa .disconnecting .receiver))).map (fun t => (t.out, t.link, t.op))
      = some ([.chanRestore, .chanClose, .resp .ok .unit], .disconnected, .idle) := by decide

/-- V5.8 and V5.11: DISC in the Sender's and the Receiver's `close`. -/
theorem test_disc_close :
    (next? (exec .disc (waiting .closeTxWaitDisc .disconnecting .sender))).map (fun t => (t.out, t.link))
      = some ([.tx [0x7E, 0x03, 0x07, 0x04, 0x7E], .chanRestore, .chanClose, .resp .ok .unit], .disconnected) ∧
    (next? (exec .disc (waiting .closeRxWaitDisc .disconnecting .receiver))).map (fun t => (t.out, t.op, t.timerArmed))
      = some ([.tx [0x7E, 0x01, 0x0B, 0x0A, 0x7E]], .closeRxWaitUa, true) := by decide

/-- V6.18 and V5.13: DISC in `receive`, and a repeated DISC. -/
theorem test_disc_again :
    (next? (exec .disc receiving)).map (fun t => (t.out, t.discPending, t.link))
      = some ([.resp .peerClosing .unit], true, .connected) ∧
    (next? (exec .disc { waiting .closeRxWaitUa .disconnecting .receiver with
        txbuf := [0x7E, 0x01, 0x0B, 0x0A, 0x7E] })).map (fun t => (t.out, t.txCount, t.statRetx))
      = some ([.tx [0x7E, 0x01, 0x0B, 0x0A, 0x7E]], 2, 1) := by decide

/-- V6.1, V6.2, V6.7. -/
theorem test_rr :
    (next? (exec .rr1 sending)).map (fun t => (t.out, t.ns, t.statBytes, t.op))
      = some ([.tx helloFrame, .resp .ok (.bytesSent 5)], true, 5, .idle) ∧
    next? (exec .rr0 sending) = some sending ∧
    (next? (exec .rr0 { sending with ns := true })).map (fun t => (t.ns, t.op)) = some (false, .idle) := by decide

/-- V6.3, V6.4, V6.5. -/
theorem test_rej :
    (next? (exec .rej0 sending)).map (fun t => (t.out, t.txCount, t.statRetx, t.ns))
      = some ([.tx helloFrame, .tx helloFrame], 2, 1, false) ∧
    (next? (exec .rej1 sending)).map (fun t => (t.out, t.txCount)) = some ([.tx helloFrame, .tx helloFrame], 2) ∧
    (next? (exec .rej0 { sending with cfgMaxAttempts := 1 })).map (fun t => (t.out, t.link, t.op, t.ns))
      = some ([.tx helloFrame, .resp .errAttemptsExhausted .unit], .connected, .idle, false) := by decide

/-- V6.11, V6.12. -/
theorem test_i0 :
    (next? (exec (.i0 hello) receiving)).map (fun t => (t.out, t.nr, t.statBytes))
      = some ([.tx [0x7E, 0x01, 0x85, 0x84, 0x7E], .resp .ok (.payload hello)], true, 5) ∧
    (next? (exec (.i0 hello) { receiving with nr := true })).map (fun t => (t.out, t.nr, t.op))
      = some ([.tx [0x7E, 0x01, 0x85, 0x84, 0x7E]], true, .recvWait) := by decide

/-- V6.15 and P3 event 8. -/
theorem test_i1 :
    (next? (exec (.i1 hello) receiving)).map (fun t => (t.out, t.nr))
      = some ([.tx [0x7E, 0x01, 0x05, 0x04, 0x7E]], false) ∧
    (next? (exec (.i1 [0x7E]) { receiving with nr := true })).map (fun t => (t.out, t.nr))
      = some ([.tx [0x7E, 0x01, 0x05, 0x04, 0x7E], .resp .ok (.payload [0x7E])], false) := by decide

/-- V5.1, V5.5. -/
theorem test_open :
    (next? (exec (.hostOpen .sender 3 3 [] []) { State.reset with chanOk := true })).map
        (fun t => (t.out, t.link, t.op, t.timerArmed, t.txCount))
      = some ([.chanOpen [] [], .tx [0x7E, 0x03, 0x03, 0x00, 0x7E]], .connecting, .openTxWaitUa, true, 1) ∧
    (next? (exec (.hostOpen .receiver 3 3 [] []) { State.reset with chanOk := true })).map
        (fun t => (t.out, t.link, t.op, t.timerArmed))
      = some ([.chanOpen [] []], .connecting, .openRxWaitSet, false) := by decide

/-- V5.15 to V5.18, V8. -/
theorem test_open_fails :
    (next? (exec (.hostOpen .sender 0 0 [] []) sender)).map State.out = some [.resp .errAlreadyOpen .unit] ∧
    (next? (exec (.hostOpen .sender 0 3 [] []) State.reset)).map State.out = some [.resp .errInvalidConfig .unit] ∧
    (next? (exec (.hostOpen .sender 3 0 [] []) State.reset)).map State.out = some [.resp .errInvalidConfig .unit] ∧
    (next? (exec (.hostOpen .sender 3 3 [] []) State.reset)).map (fun t => (t.out, t.link))
      = some ([.chanOpen [] [], .resp .errChannel .unit], .disconnected) := by decide

/-- R321's example and V6.7. -/
theorem test_send :
    (next? (exec (.hostSend hello) sender)).map (fun t => (t.out, t.op, t.txLen)) =
      some ([.tx helloFrame], .sendWaitAck, 5) ∧
    (next? (exec (.hostSend [0x68, 0x69]) { sender with ns := true })).map State.out
      = some [.tx [0x7E, 0x03, 0x40, 0x43, 0x68, 0x69, 0x01, 0x7E]] := by decide

/-- V8, V6.22. -/
theorem test_send_fails :
    (next? (exec (.hostSend []) State.reset)).map State.out = some [.resp .errNotOpen .unit] ∧
    (next? (exec (.hostSend []) receiver)).map State.out = some [.resp .errWrongRole .unit] ∧
    (next? (exec (.hostSend []) sender)).map State.out = some [.resp .errInvalidPayload .unit] := by decide

/-- R330, V6.19, V6.21. -/
theorem test_receive :
    (next? (exec .hostReceive receiver)).map (fun t => (t.out, t.op)) = some ([], .recvWait) ∧
    (next? (exec .hostReceive { receiver with discPending := true })).map (fun t => (t.out, t.op))
      = some ([.resp .peerClosing .unit], .idle) ∧
    (next? (exec .hostReceive sender)).map State.out = some [.resp .errWrongRole .unit] ∧
    (next? (exec .hostReceive State.reset)).map State.out = some [.resp .errNotOpen .unit] := by decide

/-- V5.7, V5.9, V5.14, V5.19. -/
theorem test_close :
    (next? (exec (.hostClose false) sender)).map (fun t => (t.out, t.link, t.op))
      = some ([.tx [0x7E, 0x03, 0x0B, 0x08, 0x7E]], .disconnecting, .closeTxWaitDisc) ∧
    (next? (exec (.hostClose false) receiver)).map (fun t => (t.out, t.op)) = some ([], .closeRxWaitDisc) ∧
    (next? (exec (.hostClose true) { receiver with discPending := true })).map (fun t => (t.out, t.op, t.collect))
      = some ([.tx [0x7E, 0x01, 0x0B, 0x0A, 0x7E]], .closeRxWaitUa, true) ∧
    (next? (exec (.hostClose false) State.reset)).map State.out = some [.resp .errNotOpen .unit] := by decide

/-- P3 event 13: the statistics of a `close`. -/
theorem test_close_statistics :
    (next? (exec .ua { waiting .closeRxWaitUa .disconnecting .receiver with collect := true, statBytes := 6 })).map
        State.out
      = some [.chanRestore, .chanClose, .resp .ok (.statistics 6 0)] := by decide

/-- V5.4 and V5.20: the expiry. -/
theorem test_expire :
    (next? (execExpire sending)).map (fun t => (t.out, t.txCount, t.statRetx, t.timerArmed))
      = some ([.tx helloFrame, .tx helloFrame], 2, 1, true) ∧
    (next? (execExpire { waiting .openTxWaitUa .connecting .sender with txCount := 3 })).map (fun t => (t.out, t.link))
      = some ([.chanRestore, .chanClose, .resp .errAttemptsExhausted .unit], .disconnected) := by decide

/-- V6.13, V6.14, V6.20: CKFAIL and OVERFLOW in `receive`. -/
theorem test_failure_signals :
    (next? (handleSignal exec (.ckfail false) receiving)).map State.out
      = some [.tx [0x7E, 0x01, 0x01, 0x00, 0x7E]] ∧
    (next? (handleSignal exec (.ckfail false) { receiving with nr := true })).map State.out
      = some [.tx [0x7E, 0x01, 0x81, 0x80, 0x7E]] ∧
    (next? (handleSignal exec .overflow receiving)).map (fun t => (t.out, t.link, t.op))
      = some ([.resp .errBufferOverflow .unit], .connected, .idle) := by decide

/-- R50: STATUS of a Receiver in `receive` with `nr = 1`: link 2, op 4, rx 0, bit 9, bit 12. -/
theorem test_status : ({ receiving with nr := true } : State).status 0 = 0x1212 := by decide

/-- V7.2's last step: the FLAG that ends a partly received RR1 completes the send. -/
theorem test_step_byte :
    (next? (step { sending with
        rx := regs .headerOk .rr1 [], chanRx := [0x7E, 0x55], inputs := [.rxByte, .expire] })).map
        (fun t => (t.out, t.ns, t.chanRx, t.inputs))
      = some ([.tx helloFrame, .resp .ok (.bytesSent 5)], true, [0x55], [.expire]) := by decide

/-- The next step runs the table word's instruction, from reset. -/
theorem test_fetch_word :
    (next? (step (State.reset.withFetchWord 8 0x03))).map State.out
      = some [.tx [0x7E, 0x01, 0x07, 0x06, 0x7E], .resp .ok .unit] ∧
    (next? (step (State.reset.withFetchWord 8 0x85))).map (fun t => (t.out, t.ns))
      = some ([.resp .ok (.bytesSent 0)], true) ∧
    (next? (step (State.reset.withFetchWord 8 0x00))).map (fun t => (t.out, t.nr))
      = some ([.tx [0x7E, 0x01, 0x85, 0x84, 0x7E], .resp .ok (.payload [])], true) ∧
    (next? (step (State.reset.withFetchWord 2 0b00))).map State.out = some [.resp .errInvalidConfig .unit] ∧
    (next? (step (State.reset.withFetchWord 8 0b10))).map State.out = some [.resp .errNotOpen .unit] := by decide

/-! ### Witnesses: for every statement with hypotheses, concrete values that meet them -/

theorem witness_LegalProfileMeetsConstraints :
    State.reset.params.legal = true ∧ (fewAttempts.legal = true) ∧
    ({ State.reset with params := { Params.default with cRr1 := 0x84 } } : State).params.legal = false := by decide

theorem witness_ControlDecodeInvertsControl :
    Params.default.legal = true ∧ ctrl .default .i1 = 0x40 ∧ ctrlDecode .default 0x45 = none := by decide

/-- The clauses on a received frame: the byte that gives the kind, and the byte that gives each signal. -/
theorem witness_ControlDecodeInvertsControl_received :
    (regs .addrSeen .set []).state = .addrSeen ∧ ctrlDecode .default 0x40 = some .i1 ∧
    (regs .ctrlSeen .i1 []).state ≠ .addrSeen ∧
    (rxStep .default 0x03 0x7E (regs .headerOk .rr1 [])).2 = some (.sup .rr1) ∧
    (rxStep .default 0x03 0x7E (regs .reading .i1 [0x00])).2 = some (.info true []) ∧
    (rxStep .default 0x03 0x7E (regs .reading .i1 [0x01])).2 = some (.ckfail true) := by decide

theorem witness_DecodeOfEncode :
    Params.default.legal = true ∧ (0x03#8 = Params.default.aS ∧ 0x01#8 = Params.default.aR) ∧
    (Instr.i0 []).wf .default = true ∧ (Instr.i1 [0x7E, 0x7D]).wf .default = true ∧
    (Instr.hostSend hello).wf .default = true := by decide

theorem witness_DecodeOfEncode_longest : (Instr.i1 (List.replicate 1000 0x7E)).wf .default = true := by
  simp only [Instr.wf, payloadFits, List.length_replicate]
  decide

theorem witness_ChecksumLaws : ([0x01, 0x02, 0x03] : Bytes).Perm [0x02, 0x01, 0x03] := .swap _ _ _

theorem witness_ChecksumSeesSingleBit :
    0 < 8 ∧ 7 < 8 ∧ xorAll ([0x68, 0x65, 0x6C, 0x6C] ++ [0x6F] ++ [0x62]) = 0x00 ∧
    xorAll ([] ++ [0x00] ++ []) = 0x00 := by decide

theorem witness_DestuffInvertsStuff :
    Params.default.legal = true ∧ 0x41#8 ≠ Params.default.esc ∧ 0x5E#8 ≠ Params.default.esc ∧
    (0x7E#8 ≠ 0x5E#8 ∧ 0x7E#8 ≠ 0x5D#8) ∧ destuff .default [0x41, 0x7D, 0x5E] = some [0x41, 0x7E] := by decide

theorem witness_NoUnescapedFlag :
    Params.profileB.legal = true ∧ 0x01#8 = Params.profileB.aR ∧ 0x03#8 = Params.profileB.aS := by decide

theorem witness_FrameLengths :
    ([] : Bytes).length ≤ tiny.maxPayload ∧ (List.replicate 1000 0x7E#8).length ≤ Params.default.maxPayload := by
  simp only [List.length_replicate]
  decide

theorem witness_ParserTransitionTable :
    (0x7E#8 = tiny.flag ∧ 0x55#8 ≠ tiny.flag ∧ 0x03#8 ≠ tiny.flag ∧ 0x55#8 ≠ 0x03#8) ∧
    (ctrlDecode tiny 0x40 = some .i1 ∧ ctrlDecode tiny tiny.flag = none ∧ ctrlDecode tiny 0x45 = none) ∧
    ((regs .ctrlSeen .set []).state = .ctrlSeen ∧ 0x00#8 = 0x03#8 ^^^ ctrl tiny .set ∧
      tiny.flag ≠ 0x03#8 ^^^ ctrl tiny .set ∧ 0x01#8 ≠ 0x03#8 ^^^ ctrl tiny .set) ∧
    ((regs .headerOk .ua []).ctrl = SupKind.ua.kind ∧ (regs .headerOk .i0 []).ctrl.isInfo = true) ∧
    ((regs .reading .i0 [0x00]).buf = [] ++ [0x00] ∧ (regs .reading .i0 []).buf.length ≠ tiny.rxBufCap ∧
      (regs .reading .i0 [0x00]).buf.length = tiny.rxBufCap ∧ 0x41#8 ≠ tiny.esc ∧ 0x41#8 ≠ tiny.flag) ∧
    ((regs .escape .i0 []).state = .escape ∧ 0x7E#8 ≠ 0x5E#8 ∧ 0x7E#8 ≠ 0x5D#8) := by decide

theorem witness_ParserKeepsInvariant :
    tiny.legal = true ∧ ParserOk tiny (regs .reading .i0 [0x00]) ∧ ParserOk tiny (regs .headerOk .set []) ∧
    (rxStep tiny 0x03 0x41 (regs .reading .i0 [0x00])).2 ≠ none :=
  ⟨by decide, ⟨by decide, by decide, by decide⟩, ⟨by decide, by decide, by decide⟩, by decide⟩

theorem witness_FrameParsesToItsSignal :
    Params.default.legal = true ∧ 0x03#8 = Params.default.aS ∧ (regs .start .i0 []).state = .start ∧
    ([] : Bytes).length + 1 ≤ Params.default.rxBufCap ∧
    (List.replicate 1000 0x41#8).length + 1 ≤ Params.default.rxBufCap := by
  simp only [List.length_replicate]
  decide

theorem witness_FlippedChecksumSignalsFailure :
    Params.default.legal = true ∧ 0x03#8 = Params.default.aS ∧ (regs .start .i0 []).state = .start ∧
    (∀ j, j < 8 → Params.default.flag ≠ 1#8 <<< j) ∧ [0x7C#8].length + 1 ≤ Params.default.rxBufCap ∧
    xorAll [0x7C] ≠ Params.default.flag ∧ xorAll [0x7C] ≠ Params.default.esc ∧ 0 < 8 ∧
    xorAll [0x7C] ^^^ 1#8 <<< 0 = Params.default.esc := by decide

/-- The flip stays ESC-free and FLAG-free with room for both bytes: ESC 7D becomes 7C before 5E (R338 (d)). -/
theorem witness_FlippedStuffedChecksumSignals :
    Params.default.legal = true ∧ 0x03#8 = Params.default.aS ∧ (regs .start .i0 []).state = .start ∧
    [0x7E#8].length + 2 ≤ Params.default.rxBufCap ∧ 0 < 8 ∧
    (xorAll [0x7E] = Params.default.flag ∧ 0x5E#8 = 0x5E#8) ∧ (xorAll [0x7D] = Params.default.esc ∧ 0x5D#8 = 0x5D#8) ∧
    Params.default.esc ^^^ 1#8 <<< 0 ≠ Params.default.flag ∧ 0x5E#8 ≠ Params.default.esc ∧
    xorAll [0x7E] ^^^ (Params.default.esc ^^^ 1#8 <<< 0) ≠ 0x5E#8 := by decide

/-- A legal profile whose ESC is one bit from FLAG, where the payload's XOR is FLAG, which is not 0. -/
theorem witness_FlippedStuffedChecksumSignals_flag :
    ({ Params.default with esc := 0x7F } : Params).legal = true ∧ 0x7F#8 ^^^ 1#8 <<< 0 = Params.default.flag ∧
    xorAll [0x7E] = Params.default.flag ∧ xorAll [0x7E] ≠ 0x00#8 := by decide

/-- A legal profile whose buffer has room for the literal only. -/
theorem witness_FlippedStuffedChecksumSignals_full :
    ({ Params.default with maxPayload := 1, rxBufCap := 2 } : Params).legal = true ∧
    Params.default.esc ^^^ 1#8 <<< 7 ≠ Params.default.flag ∧ 0x5E#8 ≠ Params.default.esc ∧
    [0x7E#8].length + 1 = 2 := by decide

theorem witness_StatusViewFields : receiver.cfgWritten = true := by decide

theorem witness_UnwrittenConfigFaults :
    (∃ s : State, s.cfgWritten = false ∧ s.op = .idle ∧ s.link = .connected) ∧
    (∃ s : State, s.cfgWritten = false ∧ s.op = .sendWaitAck) ∧
    (∃ s : State, s.cfgWritten = false ∧ s.op = .closeRxWaitUa) ∧
    (∃ s : State, s.cfgWritten = false ∧ s.timerArmed = true) ∧
    (∃ s : State, s.cfgWritten = false ∧ s.params.legal = true ∧ s.inputs = [.rxByte] ∧ s.op ≠ .idle ∧
      s.chanRx ≠ []) :=
  ⟨⟨{ State.reset with link := .connected }, by decide⟩, ⟨{ State.reset with op := .sendWaitAck }, by decide⟩,
    ⟨{ State.reset with op := .closeRxWaitUa }, by decide⟩, ⟨{ State.reset with timerArmed := true }, by decide⟩,
    ⟨{ State.reset with op := .recvWait, chanRx := [0x7E], inputs := [.rxByte] }, by decide⟩⟩

theorem witness_CommandsWaitForIdle : sending.op ≠ .idle := by decide

theorem witness_OpenChecksInOrder :
    (sender.op = .idle ∧ sender.link ≠ .disconnected) ∧
    (State.reset.op = .idle ∧ State.reset.link = .disconnected ∧ (0#32).toNat < 1) ∧
    (fewAttempts.maxAttemptsLimit < (6#32).toNat) ∧
    (1 ≤ (5#32).toNat ∧ (5#32).toNat ≤ fewAttempts.maxAttemptsLimit ∧ 1 ≤ (1#32).toNat ∧
      State.reset.chanOk = false) := by decide

theorem witness_OpenCreatesSession :
    ({ State.reset with chanOk := true } : State).op = .idle ∧
    ({ State.reset with chanOk := true } : State).link = .disconnected ∧
    1 ≤ (1#32).toNat ∧ (1#32).toNat ≤ State.reset.params.maxAttemptsLimit ∧
    (BitVec.allOnes 32).toNat ≤ State.reset.params.maxAttemptsLimit ∧
    ({ State.reset with chanOk := true } : State).chanOk = true := by decide

theorem witness_SetFrameMeaning :
    (waiting .openRxWaitSet .connecting .receiver).op = .openRxWaitSet ∧
    (receiving.op ≠ .idle ∧ receiving.op ≠ .openRxWaitSet) ∧ State.reset.op = .idle := by decide

theorem witness_UaFrameMeaning :
    (waiting .openTxWaitUa .connecting .sender).op = .openTxWaitUa ∧
    (waiting .closeRxWaitUa .disconnecting .receiver).op = .closeRxWaitUa ∧
    (receiving.op ≠ .idle ∧ receiving.op ≠ .openTxWaitUa ∧ receiving.op ≠ .closeRxWaitUa) ∧
    State.reset.op = .idle := by decide

theorem witness_DiscFrameMeaning :
    receiving.op = .recvWait ∧ (waiting .closeTxWaitDisc .disconnecting .sender).op = .closeTxWaitDisc ∧
    (waiting .closeRxWaitDisc .disconnecting .receiver).op = .closeRxWaitDisc ∧
    (let s := waiting .closeRxWaitUa .disconnecting .receiver
     s.op = .closeRxWaitUa ∧ s.cfgWritten = true ∧ s.txCount < s.cfgMaxAttempts) ∧
    (let s := { waiting .closeRxWaitUa .disconnecting .receiver with cfgMaxAttempts := 1 }
     s.op = .closeRxWaitUa ∧ s.cfgWritten = true ∧ s.cfgMaxAttempts ≤ s.txCount) ∧
    sending.op = .sendWaitAck ∧ State.reset.op = .idle := by decide

theorem witness_CloseCommandMeaning :
    (State.reset.op = .idle ∧ State.reset.link ≠ .connected) ∧
    (sender.op = .idle ∧ sender.link = .connected ∧ sender.cfgWritten = true ∧ sender.cfgRole = .sender) ∧
    (receiver.link = .connected ∧ receiver.cfgWritten = true ∧ receiver.cfgRole = .receiver ∧
      receiver.discPending = false ∧ ({ receiver with discPending := true } : State).discPending = true) := by decide

theorem witness_SendChecksInOrder :
    (State.reset.op = .idle ∧ State.reset.link ≠ .connected) ∧
    (receiver.op = .idle ∧ receiver.link = .connected ∧ receiver.cfgWritten = true ∧ receiver.cfgRole ≠ .sender) ∧
    (sender.op = .idle ∧ sender.link = .connected ∧ sender.cfgWritten = true ∧ sender.cfgRole = .sender ∧
      ([] : Bytes).length = 0 ∧ tiny.maxPayload < [0x41#8].length) := by decide

theorem witness_SendTransmitsFrame :
    sender.op = .idle ∧ sender.link = .connected ∧ sender.cfgWritten = true ∧ sender.cfgRole = .sender ∧
    1 ≤ [0x41#8].length ∧ [0x41#8].length ≤ sender.params.maxPayload ∧
    (List.replicate 1000 0x41#8).length ≤ sender.params.maxPayload := by
  simp only [List.length_replicate]
  decide

theorem witness_ReceiverReadyMeaning :
    (sending.op = .sendWaitAck ∧ true = !sending.ns ∧ false = sending.ns) ∧
    (receiving.op ≠ .idle ∧ receiving.op ≠ .sendWaitAck) ∧ State.reset.op = .idle := by decide

theorem witness_RejectMeaning :
    (sending.op = .sendWaitAck ∧ sending.cfgWritten = true ∧ sending.txCount < sending.cfgMaxAttempts) ∧
    (let s := { sending with cfgMaxAttempts := 1 }
     s.op = .sendWaitAck ∧ s.cfgWritten = true ∧ s.cfgMaxAttempts ≤ s.txCount) ∧
    (receiving.op ≠ .idle ∧ receiving.op ≠ .sendWaitAck) ∧ State.reset.op = .idle := by decide

theorem witness_ReceiveCommandMeaning :
    (State.reset.op = .idle ∧ State.reset.link ≠ .connected) ∧
    (sender.op = .idle ∧ sender.link = .connected ∧ sender.cfgWritten = true ∧ sender.cfgRole ≠ .receiver) ∧
    (receiver.op = .idle ∧ receiver.link = .connected ∧ receiver.cfgWritten = true ∧
      receiver.cfgRole = .receiver ∧ receiver.discPending = false ∧
      ({ receiver with discPending := true } : State).discPending = true) := by decide

theorem witness_InformationMeaning :
    (receiving.op = .recvWait ∧ false = receiving.nr ∧ true ≠ receiving.nr) ∧
    (sending.op ≠ .idle ∧ sending.op ≠ .recvWait) ∧ State.reset.op = .idle := by decide

theorem witness_FailureSignalsMeaning :
    receiving.op = .recvWait ∧ sending.op ≠ .idle ∧ sending.op ≠ .recvWait := by decide

theorem witness_DuplicateNotDeliveredTwice :
    receiving.op = .recvWait ∧ receiving.link = .connected ∧ receiving.cfgWritten = true ∧
    receiving.cfgRole = .receiver ∧ receiving.discPending = false ∧
    [0x7E, 0x01, 0x85, 0x84, 0x7E] = supFrame receiving.params receiving.params.aR
      (if receiving.nr then receiving.params.cRr0 else receiving.params.cRr1) := by decide

theorem witness_ExpiryMeaning :
    (sending.timerArmed = true ∧ sending.cfgWritten = true ∧ sending.txCount < sending.cfgMaxAttempts) ∧
    (({ sending with txCount := 3 } : State).cfgMaxAttempts ≤ ({ sending with txCount := 3 } : State).txCount) ∧
    receiving.timerArmed = false := by decide

theorem witness_FailureEffect :
    sending.op = .sendWaitAck ∧ receiving.op = .recvWait ∧
    (waiting .openTxWaitUa .connecting .sender).op = .openTxWaitUa ∧
    (waiting .closeRxWaitUa .disconnecting .receiver).op = .closeRxWaitUa := by decide

theorem witness_ResultCodeNumbers : Code.errWrongRole.num = Code.errWrongRole.num := by decide

theorem witness_TimedWaitExhausts :
    (let s := { sending with inputs := [.expire, .expire, .expire, .rxByte] }
     s.params.legal = true ∧ s.cfgWritten = true ∧ s.timerArmed = true ∧ s.txCount + 2 = s.cfgMaxAttempts ∧
      s.inputs = List.replicate (2 + 1) .expire ++ [.rxByte]) ∧
    (let s := { sending with txCount := 3, inputs := [.expire] }
     s.txCount + 0 = s.cfgMaxAttempts ∧ s.inputs = List.replicate (0 + 1) .expire ++ []) := by decide

/-- Of `witness_SendFailsAfterExactlyM`. -/
def failW : HostWord :=
  { HostWord.bare 0b01 with payload := hello }

/-- Of `witness_SendFailsAfterExactlyM`. -/
def failS : State :=
  { sender with cfgMaxAttempts := 1, inputs := [.cmd failW true, .expire, .rxByte] }

theorem witness_SendFailsAfterExactlyM :
    failS.params.legal = true ∧ failS.op = .idle ∧ failS.link = .connected ∧ failS.cfgWritten = true ∧
      failS.cfgRole = .sender ∧
      1 ≤ failS.cfgMaxAttempts ∧ failW.cmd = 0b01#2 ∧ 1 ≤ failW.payload.length ∧
      failW.payload.length ≤ failS.params.maxPayload ∧
      failS.inputs = .cmd failW true :: (List.replicate failS.cfgMaxAttempts .expire ++ [.rxByte]) := by decide

theorem witness_StepRunsCommand :
    let s := { State.reset with inputs := [.cmd (HostWord.bare 0b10) true, .expire] }
    s.params.legal = true ∧ s.inputs = .cmd (HostWord.bare 0b10) true :: [.expire] ∧
      (HostWord.bare 0b00).cmd = 0b00#2 ∧ (HostWord.bare 0b01).cmd = 0b01#2 ∧
      (HostWord.bare 0b10).cmd = 0b10#2 ∧ (HostWord.bare 0b11).cmd = 0b11#2 := by decide

/-- Of `witness_StepRunsReceivedByte`. -/
def byteStepS : State :=
  { sending with rx := regs .headerOk .rr1 [], chanRx := [0x7E], inputs := [.rxByte] }

theorem witness_StepRunsReceivedByte :
    byteStepS.params.legal = true ∧ byteStepS.inputs = .rxByte :: [] ∧ byteStepS.op ≠ .idle ∧
      byteStepS.cfgWritten = true ∧ byteStepS.chanRx = 0x7E :: [] ∧
      rxStep byteStepS.params (if byteStepS.cfgRole = .sender then byteStepS.params.aR else byteStepS.params.aS) 0x7E byteStepS.rx
        = (regs .start .rr1 [], some (.sup .rr1)) ∧
      Signal.instr? (.sup .rr1) = some .rr1 ∧
      rxStep byteStepS.params (if byteStepS.cfgRole = .sender then byteStepS.params.aR else byteStepS.params.aS) 0x55 byteStepS.rx
        = (regs .start .rr1 [], none) := by decide

theorem witness_StepOtherInputs :
    ({ State.reset with inputs := [.rxByte], chanRx := [0x7E] } : State).op = .idle ∧
    ({ receiving with inputs := [.rxByte] } : State).chanRx = [] ∧
    ({ sending with inputs := [.expire] } : State).inputs = .expire :: [] ∧
    ({ sending with inputs := [.arrive [0x7E]] } : State).inputs = .arrive [0x7E] :: [] ∧
    State.reset.params.legal = true ∧ State.reset.inputs = [] := by decide

/-- Of `witness_WholeFrameRunsInstruction`. -/
def wholeS : State :=
  { receiving with chanRx := helloFrame ++ [0x7E], inputs := List.replicate 11 Input.rxByte ++ [Input.expire] }

theorem witness_WholeFrameRunsInstruction :
    wholeS.params.legal = true ∧ wholeS.op ≠ .idle ∧ wholeS.cfgWritten = true ∧ wholeS.rx.state = .start ∧
      (Instr.i0 hello).wf wholeS.params = true ∧ frameKind? (.i0 hello) = some .i0 ∧
      frameBytes wholeS.params (peerAddr wholeS.params wholeS.cfgRole) (.i0 hello) = some helloFrame ∧
      wholeS.chanRx = helloFrame ++ [0x7E] ∧
      wholeS.inputs = List.replicate helloFrame.length .rxByte ++ [.expire] := by decide

/-- The invariant does not read what the environment holds. -/
theorem inv_of_inv {s : State} (h : s.Inv) (q : Bytes) (ins : List Input) :
    ({ s with chanRx := q, inputs := ins } : State).Inv :=
  ⟨h.legal, h.link, h.role, h.written, h.config, h.armed, h.attempts, h.counted, h.closing, h.parser, h.frame,
    h.capacity⟩

/-- A state in the middle of a `send` meets the invariant, with an RR1 partly received. -/
theorem witness_inv_sending : ({ sending with rx := regs .headerOk .rr1 [] } : State).Inv where
  legal := by decide
  link := rfl
  role := rfl
  written := fun _ => rfl
  config := fun _ => by decide
  armed := rfl
  attempts := by decide
  counted := fun _ => by decide
  closing := fun h => by cases h
  parser := ⟨by decide, fun _ => rfl, fun h => by cases h⟩
  frame := ⟨hello, by decide, by decide, rfl, by decide⟩
  capacity := by decide

/-- An idle connected core meets the invariant. -/
theorem witness_inv_idle : ({ receiver with discPending := true } : State).Inv where
  legal := by decide
  link := .inr rfl
  role := trivial
  written := fun _ => rfl
  config := fun _ => by decide
  armed := rfl
  attempts := by decide
  counted := fun h => by cases h
  closing := fun _ => rfl
  parser := ⟨by decide, fun _ => rfl, fun h => by cases h⟩
  frame := trivial
  capacity := by decide

/-- The step of `witness_inv_sending`'s state: the closing FLAG of RR1 completes the `send`. -/
theorem witness_StepKeepsInvariant :
    ∃ s t : State, s.Inv ∧ step s = .next t ∧ t.ns ≠ s.ns ∧ t.link = .connected :=
  ⟨_, _, inv_of_inv witness_inv_sending [0x7E] [.rxByte], rfl, by decide, by decide⟩

theorem witness_InvariantGivesReachableFacts :
    ∃ s : State, s.Inv ∧ s.timerArmed = true ∧
      s.op ≠ .idle := ⟨_, inv_of_inv witness_inv_sending [] [], by decide, by decide⟩

theorem witness_InvariantGivesReachableFacts_idle :
    ∃ s : State, s.Inv ∧ s.op = .idle ∧
      s.discPending = true := ⟨_, inv_of_inv witness_inv_idle [] [], by decide, by decide⟩

theorem witness_OutputOnlyGrows :
    ∃ t, step { sending with inputs := [.expire] } = .next t ∧ t.out = [.tx helloFrame, .tx helloFrame] :=
  ⟨_, rfl, by decide⟩

/-- A successful `open`, the second case; the case of an unchanged configuration is `witness_OutputOnlyGrows`. -/
theorem witness_ConfigWrittenByOpenOnly :
    ∃ t, step { State.reset with
        inputs := [.cmd { HostWord.bare 0b00 with role := true, maxAttempts := 1, timeout := 1 } true] } = .next t ∧
      t.cfgRole = .receiver ∧ t.cfgMaxAttempts = 1 := ⟨_, rfl, by decide, by decide⟩

theorem witness_LinkMovesAlongCycle :
    ∃ s t : State, s.Inv ∧ step s = .next t ∧ s.link = .connected ∧ t.link = .disconnecting :=
  ⟨_, _, inv_of_inv witness_inv_idle [] [.cmd (HostWord.bare 0b11) false], rfl, by decide, by decide⟩

theorem witness_TransmitBitTogglesOnAckOnly :
    ∃ t, step { sending with rx := regs .headerOk .rr1 [], chanRx := [0x7E], inputs := [.rxByte] } = .next t ∧
      t.ns ≠ sending.ns := ⟨_, rfl, by decide⟩

theorem witness_TransmitBitTogglesOnAckOnly_open :
    ∃ t, step { State.reset with
        ns := true, inputs := [.cmd { HostWord.bare 0b00 with maxAttempts := 1, timeout := 1 } true] } = .next t ∧
      t.ns = false := ⟨_, rfl, by decide⟩

theorem witness_ReceiveBitTogglesOnDeliveryOnly :
    ∃ t, step { receiving with rx := regs .reading .i0 [0x00], chanRx := [0x7E], inputs := [.rxByte] } = .next t ∧
      t.nr ≠ receiving.nr := ⟨_, rfl, by decide⟩

theorem witness_ReceiveBitTogglesOnDeliveryOnly_open :
    ∃ t, step { State.reset with
        nr := true, inputs := [.cmd { HostWord.bare 0b00 with maxAttempts := 1, timeout := 1 } true] } = .next t ∧
      t.nr = false := ⟨_, rfl, by decide⟩

theorem witness_DiscPendingWriters :
    ∃ t, step { receiving with rx := regs .headerOk .disc [], chanRx := [0x7E], inputs := [.rxByte] } = .next t ∧
      receiving.discPending = false ∧ t.discPending = true := ⟨_, rfl, by decide, by decide⟩

theorem witness_DiscPendingWriters_cleared :
    ∃ t, step { State.reset with
        discPending := true,
        inputs := [.cmd { HostWord.bare 0b00 with maxAttempts := 1, timeout := 1 } true] } = .next t ∧
      t.discPending = false := ⟨_, rfl, by decide⟩

theorem witness_OneResultPerOperation :
    ∃ s t : State, s.Inv ∧ step s = .next t ∧ t.op = .idle ∧ s.op ≠ .idle :=
  ⟨_, _, inv_of_inv witness_inv_sending [0x7E] [.rxByte], rfl, by decide, by decide⟩

theorem witness_IdleCoreKeepsState :
    ∃ s t : State, s.Inv ∧ s.op = .idle ∧ s.nextCommand = none ∧ step s = .next t ∧ t.chanRx ≠ s.chanRx :=
  ⟨_, _, inv_of_inv witness_inv_idle [] [.arrive [0x7E]], by decide, by decide, rfl, by decide⟩

theorem witness_QueueIsReadInOrder :
    ∃ t, step { receiving with chanRx := [0x7E, 0x55], inputs := [.rxByte] } = .next t ∧ t.chanRx = [0x55] :=
  ⟨_, rfl, by decide⟩

theorem witness_OneFrameOutstanding :
    ∃ t, step { sending with inputs := [.expire] } = .next t ∧ sending.op = .sendWaitAck ∧ t.op = .sendWaitAck :=
  ⟨_, rfl, by decide, by decide⟩

/-- Of `witness_LossFreeEstablishment`. -/
def estWa : HostWord :=
  { HostWord.bare 0b00 with maxAttempts := 1, timeout := 1 }

/-- Of `witness_LossFreeEstablishment`. -/
def estWr : HostWord :=
  { HostWord.bare 0b00 with role := true, maxAttempts := 3, timeout := 3 }

/-- Of `witness_LossFreeEstablishment`. -/
def estA : State :=
  { State.reset with
    inputs := .cmd estWa true :: .arrive (supFrame .default 0x01 0x07) :: List.replicate 5 .rxByte }

/-- Of `witness_LossFreeEstablishment`. -/
def estR : State :=
  { State.reset with
    inputs := .cmd estWr true :: .arrive (supFrame .default 0x03 0x03) :: List.replicate 5 .rxByte }

theorem witness_LossFreeEstablishment :
    estA.params.legal = true ∧ estR.params = estA.params ∧ estA.op = .idle ∧ estR.op = .idle ∧
      estA.link = .disconnected ∧
      estR.link = .disconnected ∧ estA.chanRx = [] ∧ estR.chanRx = [] ∧ estWa.cmd = 0b00#2 ∧ estWa.role = false ∧
      estWr.cmd = 0b00#2 ∧ estWr.role = true ∧ 1 ≤ estWa.maxAttempts.toNat ∧
      estWa.maxAttempts.toNat ≤ estA.params.maxAttemptsLimit ∧ 1 ≤ estWa.timeout.toNat ∧ 1 ≤ estWr.maxAttempts.toNat ∧
      estWr.maxAttempts.toNat ≤ estA.params.maxAttemptsLimit ∧ 1 ≤ estWr.timeout.toNat ∧
      estA.inputs = .cmd estWa true :: .arrive (supFrame estA.params estA.params.aR estA.params.cUa)
        :: List.replicate 5 .rxByte ∧
      estR.inputs = .cmd estWr true :: .arrive (supFrame estA.params estA.params.aS estA.params.cSet)
        :: List.replicate 5 .rxByte := by decide

/-- Of `witness_LossFreeExchange`. -/
def exchWa : HostWord :=
  { HostWord.bare 0b01 with payload := hello }

/-- Of `witness_LossFreeExchange`. -/
def exchWr : HostWord :=
  HostWord.bare 0b10

/-- Of `witness_LossFreeExchange`. -/
def exchAck : Bytes :=
  [0x7E, 0x01, 0x85, 0x84, 0x7E]

/-- Of `witness_LossFreeExchange`. -/
def exchA : State :=
  { sender with inputs := .cmd exchWa true :: .arrive exchAck :: List.replicate exchAck.length .rxByte }

/-- Of `witness_LossFreeExchange`. -/
def exchR : State :=
  { receiver with
    inputs := .cmd exchWr true :: .arrive helloFrame :: List.replicate helloFrame.length .rxByte }

theorem witness_LossFreeExchange :
    exchA.params.legal = true ∧ exchR.params = exchA.params ∧ exchA.op = .idle ∧ exchR.op = .idle ∧
      exchA.link = .connected ∧
      exchR.link = .connected ∧ exchA.cfgWritten = true ∧ exchR.cfgWritten = true ∧ exchA.cfgRole = .sender ∧
      exchR.cfgRole = .receiver ∧ exchR.discPending = false ∧ exchA.ns = exchR.nr ∧ exchA.chanRx = [] ∧
      exchR.chanRx = [] ∧
      exchWa.cmd = 0b01#2 ∧ 1 ≤ exchWa.payload.length ∧ exchWa.payload.length ≤ exchA.params.maxPayload ∧
      exchWr.cmd = 0b10#2 ∧
      helloFrame = infoFrame exchA.params exchA.params.aS exchA.ns exchWa.payload ∧
      exchAck = supFrame exchA.params exchA.params.aR (if exchA.ns then exchA.params.cRr0 else exchA.params.cRr1) ∧
      exchA.inputs = .cmd exchWa true :: .arrive exchAck :: List.replicate exchAck.length .rxByte ∧
      exchR.inputs = .cmd exchWr true :: .arrive helloFrame :: List.replicate helloFrame.length .rxByte := by decide

/-- Of `witness_LossFreeTeardown`. -/
def tearWa : HostWord :=
  HostWord.bare 0b11

/-- Of `witness_LossFreeTeardown`. -/
def tearWr : HostWord :=
  { HostWord.bare 0b11 with collect := true }

/-- Of `witness_LossFreeTeardown`. -/
def tearA : State :=
  { sender with
    inputs := .cmd tearWa true :: .arrive [0x7E, 0x01, 0x0B, 0x0A, 0x7E] :: List.replicate 5 .rxByte }

/-- Of `witness_LossFreeTeardown`. -/
def tearR : State :=
  { receiver with
    discPending := true,
    inputs := .cmd tearWr true :: .arrive [0x7E, 0x03, 0x07, 0x04, 0x7E] :: List.replicate 5 .rxByte }

theorem witness_LossFreeTeardown :
    tearA.params.legal = true ∧ tearR.params = tearA.params ∧ tearA.op = .idle ∧ tearR.op = .idle ∧
      tearA.link = .connected ∧
      tearR.link = .connected ∧ tearA.cfgWritten = true ∧ tearR.cfgWritten = true ∧ tearA.cfgRole = .sender ∧
      tearR.cfgRole = .receiver ∧ tearR.discPending = true ∧ tearA.chanRx = [] ∧ tearR.chanRx = [] ∧
      tearWa.cmd = 0b11#2 ∧
      tearWr.cmd = 0b11#2 ∧ tearWa.collect = false ∧ tearWr.collect = true ∧
      tearA.inputs = .cmd tearWa true :: .arrive (supFrame tearA.params tearA.params.aR tearA.params.cDisc)
        :: List.replicate 5 .rxByte ∧
      tearR.inputs = .cmd tearWr true :: .arrive (supFrame tearA.params tearA.params.aS tearA.params.cUa)
        :: List.replicate 5 .rxByte := by decide

theorem witness_ConfigViewFields :
    (let s := { State.reset with chanOk := true }
     s.op = .idle ∧ s.link = .disconnected ∧ 1 ≤ (1#32).toNat ∧
      (BitVec.allOnes 32).toNat ≤ s.params.maxAttemptsLimit ∧ s.chanOk = true ∧ (0#32).toNat < 1) ∧
    sender.cfgWritten = true ∧ State.reset.cfgWritten = false := by decide

theorem witness_ConfigViewFields_step :
    ∃ t, step { State.reset with
        inputs := [.cmd { HostWord.bare 0b00 with role := true, maxAttempts := 1, timeout := 2 } true] } = .next t ∧
      t.cfgView = some { role := true, maxAttempts := 1, timeout := 2 } := ⟨_, rfl, by decide⟩

end Sys2Proof.Tests
end

section
/-! SUPPORT. The state's own views (spec/10_state.md R49 to R51): the power-on values, the fields of STATUS, and CFG
with the one operation that writes it. -/

namespace Sys2Proof.Machine

/-! ### The configuration registers (R32) -/

/-- The four configuration registers as one value: role, attempt limit, interval, and whether they are written. -/
def State.configRegs (s : State) : Role × Nat × Nat × Bit :=
  (s.cfgRole, s.cfgMaxAttempts, s.cfgTimeout, s.cfgWritten)

theorem configRegs_inj {s t : State} : t.configRegs = s.configRegs ↔
    t.cfgRole = s.cfgRole ∧ t.cfgMaxAttempts = s.cfgMaxAttempts ∧ t.cfgTimeout = s.cfgTimeout ∧
      t.cfgWritten = s.cfgWritten := by
  simp [State.configRegs]

@[simp] theorem configRegs_createSession (s : State) (role : Role) (m tm : U32) :
    (s.createSession role m tm).configRegs = (role, m.toNat, tm.toNat, true) := rfl

@[simp] theorem configRegs_startSession (s : State) (role : Role) :
    (s.startSession role).configRegs = s.configRegs := by
  cases role <;> rfl

@[simp] theorem link_startSession (s : State) (role : Role) : (s.startSession role).link = s.link := by
  cases role <;> rfl

@[simp] theorem configRegs_startClose (s : State) (role : Role) :
    (s.startClose role).configRegs = s.configRegs := by
  cases role with
  | sender => rfl
  | receiver =>
    rw [startClose_receiver_eq]
    split <;> rfl

@[simp] theorem configRegs_raiseErr (s : State) (e : Code) : (s.raiseErr e).configRegs = s.configRegs := by
  rw [raiseErr_eq]; rfl

/-! ### Who writes them -/

theorem RetryMove.configRegs {u t : State} (h : RetryMove u t) : t.configRegs = u.configRegs := by
  cases h with
  | again => rfl
  | exhausted => exact configRegs_raiseErr u _

theorem SignalMove.configRegs {u t : State} {sg : Signal} (h : SignalMove u sg t) :
    t.configRegs = u.configRegs := by
  cases h with
  | discRepeated _ _ hr => exact hr.configRegs
  | rejected _ _ _ _ hr => exact hr.configRegs
  | overflowed => exact configRegs_raiseErr u _
  | _ => rfl

/-- `t` is `s` after an `open` with these operands, which are in range (R262): a fresh session of theirs (R264). -/
def OpenedWith (s t : State) (role : Role) (m tm : U32) : Prop :=
  s.link = .disconnected ∧ openConfigBad s.params m tm = false ∧ t.link = .connecting ∧
    t.configRegs = (role, m.toNat, tm.toNat, true)

theorem CommandMove.configRegs {u t : State} {i : Instr} (h : CommandMove u i t) :
    t.configRegs = u.configRegs ∨
      ∃ role m tm dev baud, i = .hostOpen role m tm dev baud ∧ OpenedWith u t role m tm := by
  cases h with
  | opened role m tm dev baud _ hl hc =>
    exact .inr ⟨role, m, tm, dev, baud, rfl, hl, hc, by simp, by simp⟩
  | closing => exact .inl (configRegs_startClose _ _)
  | _ => exact .inl rfl

/-- R32: a step keeps the configuration registers unless it is an `open` with operands in range. -/
theorem step_configRegs {s t : State} (h : step s = .next t) :
    t.configRegs = s.configRegs ∨
      ∃ role m tm dev baud, s.nextCommand = some (.hostOpen role m tm dev baud) ∧ OpenedWith s t role m tm := by
  obtain ⟨-, hm⟩ := step_move h
  cases hm with
  | quiet => exact .inl rfl
  | arrival => exact .inl rfl
  | silentByte => exact .inl rfl
  | signalByte _ _ _ _ _ _ _ _ _ _ _ hs => exact .inl hs.configRegs
  | expiry _ _ _ _ hr => exact .inl hr.configRegs
  | command w ok rest _ hi hc =>
    have hn : s.nextCommand = some (decodeHost w) := by simp [State.nextCommand, hi]
    rcases hc.configRegs with hk | ⟨role, m, tm, dev, baud, hd, ho⟩
    · exact .inl hk
    · exact .inr ⟨role, m, tm, dev, baud, hn.trans (congrArg some hd), ho⟩

/-! ### The CFG view (R51) -/

theorem cfgView_congr {s t : State} (h : t.configRegs = s.configRegs) : t.cfgView = s.cfgView := by
  obtain ⟨hr, hm, ht, hw⟩ := configRegs_inj.1 h
  simp only [State.cfgView, hr, hm, ht, hw]

theorem cfgView_of_configRegs {t : State} {role : Role} {m tm : U32}
    (h : t.configRegs = (role, m.toNat, tm.toNat, true)) :
    t.cfgView = some { role := role.toBit, maxAttempts := m, timeout := tm } := by
  simp only [State.configRegs, Prod.mk.injEq] at h
  obtain ⟨hr, hm, ht, hw⟩ := h
  simp [State.cfgView, hr, hm, ht, hw]

/-- R262: the operands `open` accepts. -/
theorem openConfigBad_eq_false_iff (p : Params) (m tm : U32) :
    openConfigBad p m tm = false ↔ 1 ≤ m.toNat ∧ m.toNat ≤ p.maxAttemptsLimit ∧ 1 ≤ tm.toNat := by
  rw [← Bool.not_eq_true, openConfigBad_iff]
  omega

/-! ### OPEN of an idle, disconnected core (R262 to R266) -/

section
variable {s : State} (ho : s.op = .idle) (hl : s.link = .disconnected) {role : Role} {m tm : U32} (dev baud : Bytes)
include ho hl

theorem exec_hostOpen_created (hc : openConfigBad s.params m tm = false) (hk : s.chanOk = true) :
    exec (.hostOpen role m tm dev baud) s
      = .next (((s.askChanOpen dev baud).createSession role m tm).startSession role) := by
  simp [exec, execHostOpen, whenIdle, ho, hl, hc, hk]

theorem exec_hostOpen_badConfig (hc : openConfigBad s.params m tm = true) :
    exec (.hostOpen role m tm dev baud) s = .next (s.respond .errInvalidConfig .unit) := by
  simp [exec, execHostOpen, whenIdle, ho, hl, hc]

end

/-- An idle core's `respond` only logs. -/
theorem respond_of_idle {s : State} (ho : s.op = .idle) (c : Code) (v : Value) :
    s.respond c v = { s with out := s.out ++ [.resp c v] } := by
  simp [State.respond, ← ho]

/-- Settles O59: CFG follows the configuration registers, which only an `open` with operands in range writes. -/
theorem configViewFields : Obligations.ConfigViewFields := by
  unfold Obligations.ConfigViewFields
  refine ⟨fun _ => rfl, fun s role m tm dev baud ho hl => ⟨fun hm hM ht hk => ?_, fun hbad => ?_⟩, fun s t h => ?_⟩
  · have hc := (openConfigBad_eq_false_iff s.params m tm).2 ⟨hm, hM, ht⟩
    exact ⟨_, exec_hostOpen_created ho hl dev baud hc hk, cfgView_of_configRegs (by simp)⟩
  · rw [exec_hostOpen_badConfig ho hl dev baud ((openConfigBad_iff s.params m tm).2 hbad), respond_of_idle ho]
  · rcases step_configRegs h with hk | ⟨role, m, tm, dev, baud, hn, -, hc, -, hcfg⟩
    · exact .inl (cfgView_congr hk)
    · obtain ⟨hm, hM, ht⟩ := (openConfigBad_eq_false_iff s.params m tm).1 hc
      exact .inr ⟨role, m, tm, dev, baud, hn, hm, hM, ht, cfgView_of_configRegs hcfg⟩

/-! ### Power-on (R49) -/

/-- Settles O16: the power-on values, and the fault of both readers of an unwritten configuration. -/
theorem powerOnState : Obligations.PowerOnState := by
  unfold Obligations.PowerOnState
  have hunwritten : State.reset.cfgWritten = false := rfl
  refine ⟨rfl, rfl, rfl, rfl, rfl, rfl, rfl, rfl, rfl, rfl, rfl, rfl, rfl, rfl, ?_, fun k => ?_, fun k => ?_⟩
  · simp [State.cfgView, hunwritten]
  · simp [withRole, hunwritten]
  · simp [withMaxAttempts, hunwritten]

/-! ### STATUS (R50) -/

section
variable (s : State) (draw : Nat)

theorem status_link : (s.status draw).extractLsb' 0 2 = s.link.code := by
  simp (disch := decide) only [State.status, BitVec.extractLsb'_append_eq_of_add_le,
    BitVec.extractLsb'_eq_self]

theorem status_op : (s.status draw).extractLsb' 2 3 = s.op.code := by
  simp (disch := decide) only [State.status, BitVec.extractLsb'_append_eq_of_add_le,
    BitVec.extractLsb'_append_eq_left]

theorem status_rxState : (s.status draw).extractLsb' 5 3 = rxStateCode s.rx.state := by
  simp (disch := decide) only [State.status, BitVec.extractLsb'_append_eq_of_add_le,
    BitVec.extractLsb'_append_eq_left]

theorem status_reserved : (s.status draw).extractLsb' 13 3 = 0#3 :=
  BitVec.extractLsb'_append_eq_left

theorem status_bits :
    (s.status draw).getLsbD 8 = s.ns ∧ (s.status draw).getLsbD 9 = s.nr ∧
    (s.status draw).getLsbD 10 = s.discPending ∧ (s.status draw).getLsbD 11 = s.timerArmed ∧
    (s.status draw).getLsbD 12 = s.roleBit draw := by
  simp only [State.status, BitVec.getLsbD_append]
  simp

end

theorem roleBit_of_written {s : State} (draw : Nat) (hw : s.cfgWritten = true) :
    s.roleBit draw = s.cfgRole.toBit := by
  simp [State.roleBit, hw]

/-- Settles O17: the code tables by evaluation, and each field of STATUS by its place in the word. -/
theorem statusViewFields : Obligations.StatusViewFields := by
  unfold Obligations.StatusViewFields
  refine ⟨by decide, by decide, by decide, ?_, ⟨rfl, rfl⟩, fun s draw => ?_⟩
  · intro r
    cases r <;> decide
  · obtain ⟨hns, hnr, hdisc, htimer, hrole⟩ := status_bits s draw
    exact ⟨status_link s draw, status_op s draw, status_rxState s draw, hns, hnr, hdisc, htimer,
      fun hw => hrole.trans (roleBit_of_written draw hw), status_reserved s draw, fun _ => rfl⟩

end Sys2Proof.Machine
end

section
/-! SUPPORT. The kind of a frame in progress (spec/30_encoding.md R103, R106): the control decoder as the inverse of
`ctrl`, and the kind in `rx_ctrl` as what every signal of the parser carries. -/

namespace Sys2Proof

/-! ### Control bytes -/

section
variable {p : Params} (h : p.legal = true)
include h

theorem ctrlDecode_eq_some_iff {b : Byte} {k : FrameKind} : ctrlDecode p b = some k ↔ ctrl p k = b :=
  ⟨ctrl_of_ctrlDecode, fun hb => hb ▸ ctrlDecode_ctrl h k⟩

theorem ctrlDecode_eq_none_iff {b : Byte} : ctrlDecode p b = none ↔ ∀ k : FrameKind, ctrl p k ≠ b := by
  simp only [Option.eq_none_iff_forall_ne_some, ne_eq, ctrlDecode_eq_some_iff h]

end

/-! ### Kinds -/

theorem isInfo_iff_i0_or_i1 (k : FrameKind) : k.isInfo = true ↔ k = .i0 ∨ k = .i1 := by
  cases k <;> simp [FrameKind.isInfo, FrameKind.sup?]

theorem kind_of_sup? {k : FrameKind} {j : SupKind} (h : k.sup? = some j) : j.kind = k := by
  cases k <;> cases h <;> rfl

/-! ### The kind a signal carries -/

/-- What the signal of a frame says of its kind `k`: SUP names it, INFO and CKFAIL carry its sequence bit. -/
def Signal.OfKind (k : FrameKind) : Signal → Prop
  | .sup j => j.kind = k
  | .info q _ => q = k.seq
  | .ckfail q => q = k.seq
  | .overflow => True

theorem ofKind_checkBody (k : FrameKind) (pl : Bytes) (chk : Byte) : (checkBody k.seq pl chk).OfKind k := by
  unfold checkBody
  split <;> rfl

/-- A parser result that leaves `rx_ctrl` as it was in `r`, with no signal or one of that kind. -/
def KeepsKind (r : ParserRegs) (x : ParserRegs × Option Signal) : Prop :=
  x.1.ctrl = r.ctrl ∧ ∀ sg, x.2 = some sg → sg.OfKind r.ctrl

theorem keepsKind_silent {r r' : ParserRegs} (h : r'.ctrl = r.ctrl) : KeepsKind r (r', none) :=
  ⟨h, fun _ hs => nomatch hs⟩

theorem keepsKind_signal {r r' : ParserRegs} {sg : Signal} (h : r'.ctrl = r.ctrl) (hk : sg.OfKind r.ctrl) :
    KeepsKind r (r', some sg) :=
  ⟨h, fun _ hs => Option.some.inj hs ▸ hk⟩

section
variable (p : Params) (e b : Byte) (r : ParserRegs)

theorem rxStore_keepsKind (v : Byte) : KeepsKind r (rxStore p v r) := by
  unfold rxStore
  split
  case isTrue => exact keepsKind_signal rfl trivial
  case isFalse => exact keepsKind_silent rfl

theorem rxReading_keepsKind : KeepsKind r (rxReading p b r) := by
  unfold rxReading
  split_ifs
  · exact keepsKind_silent rfl
  · cases r.buf.getLast? with
    | none => exact keepsKind_signal rfl rfl
    | some chk => exact keepsKind_signal rfl (ofKind_checkBody r.ctrl _ chk)
  · exact rxStore_keepsKind p r b

theorem rxEscape_keepsKind : KeepsKind r (rxEscape p b r) := by
  unfold rxEscape
  split_ifs
  · exact rxStore_keepsKind p r p.flag
  · exact rxStore_keepsKind p r p.esc
  · exact keepsKind_signal rfl rfl

variable {r}

/-- ADDR_SEEN is silent (R207 to R209). -/
theorem rxStep_addrSeen_silent (h : r.state = .addrSeen) : (rxStep p e b r).2 = none := by
  simp only [rxStep, h]
  split
  · rfl
  · split <;> rfl

/-- The control byte's kind goes to `rx_ctrl` (R207). -/
theorem rxStep_addrSeen_ctrl (h : r.state = .addrSeen) {k : FrameKind} (hk : ctrlDecode p b = some k) :
    (rxStep p e b r).1.ctrl = k := by
  simp only [rxStep, h, hk]

/-- Outside ADDR_SEEN the parser keeps `rx_ctrl`, and its signal is of that kind. -/
theorem rxStep_keepsKind (h : r.state ≠ .addrSeen) : KeepsKind r (rxStep p e b r) := by
  cases hs : r.state with
  | start =>
    simp only [rxStep, hs]
    split <;> exact keepsKind_silent rfl
  | flagSeen =>
    simp only [rxStep, hs]
    split_ifs <;> exact keepsKind_silent rfl
  | addrSeen => exact absurd hs h
  | ctrlSeen =>
    simp only [rxStep, hs]
    split_ifs <;> exact keepsKind_silent rfl
  | headerOk =>
    cases hk : r.ctrl.sup? with
    | none =>
      rw [rxStep_body (.inr ⟨hs, (isInfo_iff _).2 hk⟩)]
      exact rxReading_keepsKind p b r
    | some k =>
      simp only [rxStep, hs, hk]
      split
      case isTrue => exact keepsKind_signal rfl (kind_of_sup? hk)
      case isFalse => exact keepsKind_silent rfl
  | reading =>
    rw [rxStep_body (.inl hs)]
    exact rxReading_keepsKind p b r
  | escape =>
    simp only [rxStep, hs]
    exact rxEscape_keepsKind p b r

/-- R103: the kind in `rx_ctrl` is the kind of the signal, in every state of the parser. -/
theorem rxStep_signal_ofKind {sg : Signal} (h : (rxStep p e b r).2 = some sg) : sg.OfKind r.ctrl := by
  by_cases hs : r.state = .addrSeen
  · rw [rxStep_addrSeen_silent p e b hs] at h
    cases h
  · exact (rxStep_keepsKind p e b hs).2 sg h

end

/-- Settles O2: the tables by cases, the decoder by injectivity of `ctrl` under a legal profile, and the parser's
clauses from the kind its signals carry. -/
theorem controlDecodeInvertsControl : Obligations.ControlDecodeInvertsControl := by
  unfold Obligations.ControlDecodeInvertsControl
  refine ⟨fun _ => ⟨rfl, rfl, rfl, rfl, rfl, rfl, rfl, rfl, rfl⟩, mem_allKinds, isInfo_iff_i0_or_i1,
    ⟨rfl, rfl, rfl, rfl, rfl, rfl⟩, fun p hp => ⟨fun b k => ctrlDecode_eq_some_iff hp,
      fun b => ctrlDecode_eq_none_iff hp⟩, fun p e b r => ⟨?_, ?_, ?_, ?_, ?_⟩⟩
  · exact fun k hs hk => rxStep_addrSeen_ctrl p e b hs hk
  · exact fun hs => (rxStep_keepsKind p e b hs).1
  · exact fun k h => rxStep_signal_ofKind p e b h
  · exact fun q pl h => rxStep_signal_ofKind p e b h
  · exact fun q h => rxStep_signal_ofKind p e b h

end Sys2Proof
end

section
/-! SUPPORT. The two frame builders and the XOR checksum (spec/40_frame_codec.md R150, R153, R154): the layout of a
frame byte by byte, and the checksum as a value of the bytes whatever their order. -/

namespace Sys2Proof

/-! ### Layouts (R153, R154) -/

theorem supFrame_eq (p : Params) (a c : Byte) : supFrame p a c = [p.flag, a, c, a ^^^ c, p.flag] := rfl

theorem infoFrame_eq (p : Params) (a : Byte) (s : Bit) (pl : Bytes) :
    infoFrame p a s pl = p.flag :: a :: ctrl p (infoKind s) :: (a ^^^ ctrl p (infoKind s)) ::
      (stuff p (pl ++ [xorAll pl]) ++ [p.flag]) := rfl

/-- Settles O5: the layouts with the control byte of each sequence bit put in. -/
theorem frameLayouts : Obligations.FrameLayouts := by
  unfold Obligations.FrameLayouts
  exact ⟨supFrame_eq, fun p a pl => ⟨infoFrame_eq p a false pl, infoFrame_eq p a true pl⟩⟩

/-! ### Checksum (R150) -/

theorem xorAll_concat (xs : Bytes) (b : Byte) : xorAll (xs ++ [b]) = xorAll xs ^^^ b := by simp

theorem xorAll_append_twice (xs : Bytes) (b : Byte) : xorAll (xs ++ [b, b]) = xorAll xs := by
  have hcancel : xorAll [b, b] = 0#8 := by simp
  rw [xorAll_append, hcancel, BitVec.xor_zero]

/-- The fold's step commutes with itself, which is all that a fold over a permutation needs. -/
theorem xorAll_perm {xs ys : Bytes} (h : xs.Perm ys) : xorAll xs = xorAll ys := by
  have : RightCommutative fun acc b : Byte => acc ^^^ b :=
    ⟨fun acc b c => by rw [BitVec.xor_assoc, BitVec.xor_comm b c, BitVec.xor_assoc]⟩
  exact h.foldl_eq 0#8

/-- Settles O6: the laws of appending from `xorAll_append`, the order of the bytes from `xorAll_perm`; the example is
evaluated. -/
theorem checksumLaws : Obligations.ChecksumLaws := by
  unfold Obligations.ChecksumLaws
  exact ⟨xorAll_nil, by decide, xorAll_concat, xorAll_append_twice, fun _ _ h => xorAll_perm h⟩

end Sys2Proof
end

section
/-! SUPPORT. The parser's transition table (spec/41_receiver_fsm.md section 3): one equation per state of the parser,
and one per outcome of the three operations on a body byte. -/

namespace Sys2Proof

section
variable {p : Params} {e b : Byte} {r : ParserRegs}

/-! ### Header states (R202 to R215) -/

theorem rxStep_of_start (h : r.state = .start) :
    rxStep p e b r = ({ r with state := if b = p.flag then .flagSeen else .start }, none) := by
  simp only [rxStep, h]
  split <;> rfl

theorem rxStep_of_flagSeen (h : r.state = .flagSeen) :
    rxStep p e b r
      = ({ r with state := if b = p.flag then .flagSeen else if b = e then .addrSeen else .start }, none) := by
  simp only [rxStep, h]
  split_ifs <;> rfl

theorem rxStep_of_addrSeen_ctrl (h : r.state = .addrSeen) {k : FrameKind} (hk : ctrlDecode p b = some k) :
    rxStep p e b r = ({ r with state := .ctrlSeen, ctrl := k }, none) := by
  simp only [rxStep, h, hk]

theorem rxStep_of_addrSeen_none (h : r.state = .addrSeen) (hk : ctrlDecode p b = none) :
    rxStep p e b r = ({ r with state := if b = p.flag then .flagSeen else .start }, none) := by
  simp only [rxStep, h, hk]
  split <;> rfl

theorem rxStep_of_ctrlSeen_bcc (h : r.state = .ctrlSeen) (hb : b = e ^^^ ctrl p r.ctrl) :
    rxStep p e b r = ({ r with state := .headerOk, buf := [] }, none) := by
  simp only [rxStep, h, if_pos hb]

theorem rxStep_of_ctrlSeen_ne_bcc (h : r.state = .ctrlSeen) (hb : b ≠ e ^^^ ctrl p r.ctrl) :
    rxStep p e b r = ({ r with state := if b = p.flag then .flagSeen else .start }, none) := by
  simp only [rxStep, h, if_neg hb]
  split <;> rfl

theorem rxStep_of_headerOk_sup (h : r.state = .headerOk) {k : SupKind} (hk : r.ctrl = k.kind) :
    rxStep p e b r = ({ r with state := .start }, if b = p.flag then some (.sup k) else none) := by
  simp only [rxStep, h, hk, sup?_kind]
  split <;> rfl

/-! ### Body bytes (R217 to R222, R227) -/

theorem rxStore_full {v : Byte} (h : r.buf.length = p.rxBufCap) :
    rxStore p v r = ({ r with state := .start, buf := [] }, some .overflow) := if_pos h

theorem rxStore_of_not_full {v : Byte} (h : r.buf.length ≠ p.rxBufCap) :
    rxStore p v r = ({ r with state := .reading, buf := r.buf ++ [v] }, none) := if_neg h

theorem rxReading_esc (h : b = p.esc) : rxReading p b r = ({ r with state := .escape }, none) := if_pos h

theorem rxReading_flag (h : b ≠ p.esc) (hf : b = p.flag) {pl : Bytes} {chk : Byte} (hb : r.buf = pl ++ [chk]) :
    rxReading p b r = ({ r with state := .start, buf := [] }, some (checkBody r.ctrl.seq pl chk)) := by
  simp only [rxReading, if_neg h, if_pos hf, hb, List.getLast?_concat, List.dropLast_concat]

theorem rxReading_flag_empty (h : b ≠ p.esc) (hf : b = p.flag) (hb : r.buf = []) :
    rxReading p b r = ({ r with state := .start }, some (.ckfail r.ctrl.seq)) := by
  simp only [rxReading, if_neg h, if_pos hf, hb, List.getLast?_nil]

theorem rxReading_other (h : b ≠ p.esc) (hf : b ≠ p.flag) : rxReading p b r = rxStore p b r := by
  rw [rxReading, if_neg h, if_neg hf]

/-- Every outcome of READING sets the state anew, so a body byte taken in HEADER_OK acts as in READING (R216). -/
theorem rxReading_set_state (st : RxState) : rxReading p b { r with state := st } = rxReading p b r := rfl

theorem rxStep_of_escape (h : r.state = .escape) : rxStep p e b r = rxEscape p b r := by
  simp only [rxStep, h]

theorem rxEscape_flag (h : b = escFollowFlag) : rxEscape p b r = rxStore p p.flag r := if_pos h

theorem rxEscape_esc (h : b = escFollowEsc) : rxEscape p b r = rxStore p p.esc r := by
  have hne : b ≠ escFollowFlag := h ▸ by decide
  rw [rxEscape, if_neg hne, if_pos h]

theorem rxEscape_other (hf : b ≠ escFollowFlag) (he : b ≠ escFollowEsc) :
    rxEscape p b r = ({ r with state := .start, buf := [] }, some (.ckfail r.ctrl.seq)) := by
  rw [rxEscape, if_neg hf, if_neg he]

end

/-- Settles O12: the states in the order of the table, each line by the equation of its state or of its body byte. -/
theorem parserTransitionTable : Obligations.ParserTransitionTable := by
  unfold Obligations.ParserTransitionTable
  intro p e b r
  refine ⟨fun hs => ?start, fun hs => ?flagSeen, fun hs => ?addrSeen, fun hs => ?ctrlSeen,
    fun hs k hk => ?supervisory, fun hs hi => ?information, fun hs => ?reading, fun hs => ?escape⟩
  case start =>
    rw [rxStep_of_start hs]
    exact ⟨fun hf => by rw [if_pos hf], fun hf => by rw [if_neg hf]⟩
  case flagSeen =>
    rw [rxStep_of_flagSeen hs]
    exact ⟨fun hf => by rw [if_pos hf], fun hf he => by rw [if_neg hf, if_pos he],
      fun hf he => by rw [if_neg hf, if_neg he]⟩
  case addrSeen =>
    exact ⟨fun k hk => rxStep_of_addrSeen_ctrl hs hk,
      fun hk hf => by rw [rxStep_of_addrSeen_none hs hk, if_pos hf],
      fun hk hf => by rw [rxStep_of_addrSeen_none hs hk, if_neg hf]⟩
  case ctrlSeen =>
    exact ⟨rxStep_of_ctrlSeen_bcc hs,
      fun hb hf => by rw [rxStep_of_ctrlSeen_ne_bcc hs hb, if_pos hf],
      fun hb hf => by rw [rxStep_of_ctrlSeen_ne_bcc hs hb, if_neg hf]⟩
  case supervisory =>
    rw [rxStep_of_headerOk_sup hs hk]
    exact ⟨fun hf => by rw [if_pos hf], fun hf => by rw [if_neg hf]⟩
  case information =>
    rw [rxStep_body (.inr ⟨hs, hi⟩), rxStep_body (.inl rfl)]
    exact (rxReading_set_state .reading).symm
  case reading =>
    rw [rxStep_body (.inl hs)]
    refine ⟨rxReading_esc, fun he hf _ _ hb => rxReading_flag he hf hb, rxReading_flag_empty,
      fun he hf hcap => ?_, fun he hf hcap => ?_⟩
    · rw [rxReading_other he hf, rxStore_of_not_full hcap, ← hs]
    · rw [rxReading_other he hf, rxStore_full hcap]
  case escape =>
    rw [rxStep_of_escape hs]
    refine ⟨fun hf hcap => ?_, fun he hcap => ?_, fun hfe hcap => ?_, rxEscape_other⟩
    · rw [rxEscape_flag hf, rxStore_of_not_full hcap]
    · rw [rxEscape_esc he, rxStore_of_not_full hcap]
    · rcases hfe with hf | he
      · rw [rxEscape_flag hf, rxStore_full hcap]
      · rw [rxEscape_esc he, rxStore_full hcap]

end Sys2Proof
end

section
/-! SUPPORT. The connection lifecycle (spec/42_connection.md): OPEN, CLOSE and the DISC frame, one equation per branch,
each answered state written out as one record update. -/

namespace Sys2Proof.Machine

/-! ### OPEN (R261 to R266) -/

theorem exec_hostOpen_alreadyOpen {s : State} (ho : s.op = .idle) (hl : s.link ≠ .disconnected) (role : Role)
    (m t : U32) (dev baud : Bytes) :
    exec (.hostOpen role m t dev baud) s = .next (s.respond .errAlreadyOpen .unit) := by
  simp [exec, execHostOpen, whenIdle, ho, hl]

theorem exec_hostOpen_channelFailed {s : State} (ho : s.op = .idle) (hl : s.link = .disconnected) {role : Role}
    {m t : U32} (dev baud : Bytes) (hc : openConfigBad s.params m t = false) (hk : s.chanOk = false) :
    exec (.hostOpen role m t dev baud) s = .next ((s.askChanOpen dev baud).respond .errChannel .unit) := by
  simp [exec, execHostOpen, whenIdle, ho, hl, hc, hk]

/-- An idle core that only asked for the channel and answered keeps all but its log. -/
theorem askChanOpen_respond_of_idle {s : State} (ho : s.op = .idle) (dev baud : Bytes) (c : Code) (v : Value) :
    (s.askChanOpen dev baud).respond c v = { s with out := s.out ++ [.chanOpen dev baud, .resp c v] } := by
  rw [respond_of_idle (show (s.askChanOpen dev baud).op = .idle from ho)]
  simp [State.askChanOpen, State.log]

/-- The Sender's new session, its SET on the wire (R264, R265). -/
theorem openedSession_sender_eq (s : State) (m t : U32) (dev baud : Bytes) :
    ((s.askChanOpen dev baud).createSession .sender m t).startSession .sender = { s with
      cfgRole := .sender, cfgMaxAttempts := m.toNat, cfgTimeout := t.toNat, cfgWritten := true,
      ns := false, nr := false, discPending := false,
      txCount := 1, txbuf := supFrame s.params s.params.aS s.params.cSet, txLen := 0,
      statBytes := 0, statRetx := 0, link := .connecting, op := .openTxWaitUa, timerArmed := true,
      rx := s.rx.reset,
      out := s.out ++ [.chanOpen dev baud, .tx (supFrame s.params s.params.aS s.params.cSet)] } := by
  rw [startSession_sender_eq]
  simp [State.createSession, State.askChanOpen, State.log]

/-- The Receiver's new session, with nothing sent and no timer (R264, R266). -/
theorem openedSession_receiver_eq (s : State) (m t : U32) (dev baud : Bytes) :
    ((s.askChanOpen dev baud).createSession .receiver m t).startSession .receiver = { s with
      cfgRole := .receiver, cfgMaxAttempts := m.toNat, cfgTimeout := t.toNat, cfgWritten := true,
      ns := false, nr := false, discPending := false,
      txCount := 0, txbuf := [], txLen := 0,
      statBytes := 0, statRetx := 0, link := .connecting, op := .openRxWaitSet,
      rx := s.rx.reset, out := s.out ++ [.chanOpen dev baud] } := rfl

/-- Settles O20: one equation of OPEN for each check, and an idle core's answer only logs. -/
theorem openChecksInOrder : Obligations.OpenChecksInOrder := by
  unfold Obligations.OpenChecksInOrder
  intro s role m t dev baud ho
  refine ⟨fun hl => ?alreadyOpen, fun hl hbad => ?badConfig, fun hl hm hM ht hk => ?channelFailed⟩
  case alreadyOpen => rw [exec_hostOpen_alreadyOpen ho hl, respond_of_idle ho]
  case badConfig =>
    rw [exec_hostOpen_badConfig ho hl dev baud ((openConfigBad_iff s.params m t).2 hbad), respond_of_idle ho]
  case channelFailed =>
    have hc := (openConfigBad_eq_false_iff s.params m t).2 ⟨hm, hM, ht⟩
    rw [exec_hostOpen_channelFailed ho hl dev baud hc hk, askChanOpen_respond_of_idle ho]

/-- Settles O21: OPEN passes its checks, and the session it begins is written out for each role. -/
theorem openCreatesSession : Obligations.OpenCreatesSession := by
  unfold Obligations.OpenCreatesSession
  intro s m t dev baud ho hl hm hM ht hk
  have hc := (openConfigBad_eq_false_iff s.params m t).2 ⟨hm, hM, ht⟩
  constructor
  · rw [exec_hostOpen_created ho hl dev baud hc hk, openedSession_sender_eq, ParserRegs.reset]
  · rw [exec_hostOpen_created ho hl dev baud hc hk, openedSession_receiver_eq, ParserRegs.reset]

/-! ### CLOSE (R269, R270, R274, R275) -/

theorem exec_hostClose_notOpen {s : State} (ho : s.op = .idle) (hl : s.link ≠ .connected) (c : Bit) :
    exec (.hostClose c) s = .next (s.respond .errNotOpen .unit) := by
  simp [exec, execHostClose, whenIdle, ho, hl]

theorem exec_hostClose_closing {s : State} (ho : s.op = .idle) (hl : s.link = .connected)
    (hw : s.cfgWritten = true) {role : Role} (hr : s.cfgRole = role) (c : Bit) :
    exec (.hostClose c) s = .next ((s.latchClose c).startClose role) := by
  simp [exec, execHostClose, whenIdle, withRole, ho, hl, hw, hr]

theorem startClose_receiver_of_discPending {s : State} (hd : s.discPending = true) :
    s.startClose .receiver = s.parserReset.replyDisc := by
  rw [startClose_receiver_eq, if_pos hd]

theorem startClose_receiver_of_not_discPending {s : State} (hd : s.discPending = false) :
    s.startClose .receiver = { s with rx := s.rx.reset, op := .closeRxWaitDisc } := by
  rw [startClose_receiver_eq, hd]; rfl

/-- Settles O25: a core that is not CONNECTED only answers; else the operand is latched and the role's close begins. -/
theorem closeCommandMeaning : Obligations.CloseCommandMeaning := by
  unfold Obligations.CloseCommandMeaning
  intro s c ho
  refine ⟨fun hl => ?notOpen, fun hl hw hr => ?sender, fun hl hw hr hd => ?discPending,
    fun hl hw hr hd => ?noDiscYet⟩
  case notOpen => rw [exec_hostClose_notOpen ho hl, respond_of_idle ho]
  case sender =>
    rw [exec_hostClose_closing ho hl hw hr, startClose_sender_eq]
    rfl
  case discPending =>
    rw [exec_hostClose_closing ho hl hw hr,
      startClose_receiver_of_discPending (show (s.latchClose c).discPending = true from hd), replyDisc_eq]
    rfl
  case noDiscYet =>
    rw [exec_hostClose_closing ho hl hw hr,
      startClose_receiver_of_not_discPending (show (s.latchClose c).discPending = false from hd)]
    rfl

/-! ### Retransmit or fail (spec/44_timer.md R381) -/

theorem retransmitOrFail_of_lt {s : State} (hw : s.cfgWritten = true) (hm : s.txCount < s.cfgMaxAttempts) :
    retransmitOrFail s = .next s.retransmit := by
  simp [retransmitOrFail, withMaxAttempts, hw, hm]

theorem retransmitOrFail_of_le {s : State} (hw : s.cfgWritten = true) (hm : s.cfgMaxAttempts ≤ s.txCount) :
    retransmitOrFail s = .next (s.raiseErr .errAttemptsExhausted) := by
  simp [retransmitOrFail, withMaxAttempts, hw, Nat.not_lt.2 hm]

/-! ### DISC (R271, R276, R278; spec/43_arq.md R334) -/

section
variable {s : State}

theorem exec_disc_of_recvWait (ho : s.op = .recvWait) :
    exec .disc s = .next (s.setDiscPending.respond .peerClosing .unit) := by
  simp only [exec, execDisc, ho]

theorem exec_disc_of_closeTxWaitDisc (ho : s.op = .closeTxWaitDisc) :
    exec .disc s = .next (s.disarm.emit (supFrame s.params s.params.aS s.params.cUa)).finishClose := by
  simp only [exec, execDisc, ho]

theorem exec_disc_of_closeRxWaitDisc (ho : s.op = .closeRxWaitDisc) : exec .disc s = .next s.replyDisc := by
  simp only [exec, execDisc, ho]

theorem exec_disc_of_closeRxWaitUa (ho : s.op = .closeRxWaitUa) : exec .disc s = retransmitOrFail s := by
  simp only [exec, execDisc, ho]

theorem exec_disc_ignored (ho : s.op = .openTxWaitUa ∨ s.op = .openRxWaitSet ∨ s.op = .sendWaitAck) :
    exec .disc s = .next s := by
  rcases ho with ho | ho | ho <;> simp only [exec, execDisc, ho]

theorem exec_disc_of_idle (ho : s.op = .idle) : exec .disc s = .refused .rxNotEnabled := by
  simp only [exec, execDisc, ho]

end

/-- The end of a `close` whose last frame is the one emitted here, with the timer off (R271 with R279). -/
theorem disarm_emit_finishClose_eq (s : State) (bs : Bytes) :
    (s.disarm.emit bs).finishClose = { s with
      timerArmed := false, link := .disconnected, op := .idle,
      out := s.out ++ [.tx bs, .chanRestore, .chanClose, .resp .ok (closeValue s)] } := by
  have hv : closeValue (s.disarm.emit bs) = closeValue s := rfl
  rw [finishClose_eq, hv]
  simp [State.emit, State.log, State.disarm]

/-- Settles O24: the column SUP(DISC), wait by wait; the repeated DISC splits on the attempts left. -/
theorem discFrameMeaning : Obligations.DiscFrameMeaning := by
  unfold Obligations.DiscFrameMeaning
  intro s
  refine ⟨fun ho => ?recvWait, fun ho => ?closeTxWaitDisc, fun ho => ?closeRxWaitDisc, fun ho hw hm => ?again,
    fun ho hw hm => ?exhausted, exec_disc_ignored, exec_disc_of_idle⟩
  case recvWait =>
    rw [exec_disc_of_recvWait ho]
    rfl
  case closeTxWaitDisc => rw [exec_disc_of_closeTxWaitDisc ho, disarm_emit_finishClose_eq, closeValue]
  case closeRxWaitDisc => rw [exec_disc_of_closeRxWaitDisc ho, replyDisc_eq]
  case again =>
    rw [exec_disc_of_closeRxWaitUa ho, retransmitOrFail_of_lt hw hm]
    rfl
  case exhausted =>
    rw [exec_disc_of_closeRxWaitUa ho, retransmitOrFail_of_le hw hm, raiseErr_eq, ho]
    rfl

end Sys2Proof.Machine
end

section
/-! SUPPORT. Reliable transfer (spec/43_arq.md): SEND, RECEIVE, and the signals RR, REJ, INFO, CKFAIL and OVERFLOW, one
equation per branch, each answered state written out as one record update. -/

namespace Sys2Proof.Machine

/-! ### SEND (R320, R321) -/

theorem sendPayloadBad_iff (p : Params) (pl : Bytes) :
    sendPayloadBad p pl = true ↔ pl.length = 0 ∨ p.maxPayload < pl.length := by
  simp [sendPayloadBad]

theorem sendPayloadBad_eq_false_iff (p : Params) (pl : Bytes) :
    sendPayloadBad p pl = false ↔ 1 ≤ pl.length ∧ pl.length ≤ p.maxPayload := by
  rw [← Bool.not_eq_true, sendPayloadBad_iff]
  omega

section
variable {s : State} (ho : s.op = .idle) (pl : Bytes)
include ho

theorem exec_hostSend_notOpen (hl : s.link ≠ .connected) :
    exec (.hostSend pl) s = .next (s.respond .errNotOpen .unit) := by
  simp [exec, execHostSend, whenIdle, ho, hl]

theorem exec_hostSend_wrongRole (hl : s.link = .connected) (hw : s.cfgWritten = true) (hr : s.cfgRole ≠ .sender) :
    exec (.hostSend pl) s = .next (s.respond .errWrongRole .unit) := by
  simp [exec, execHostSend, whenIdle, withRole, ho, hl, hw, hr]

theorem exec_hostSend_badPayload (hl : s.link = .connected) (hw : s.cfgWritten = true) (hr : s.cfgRole = .sender)
    (hp : sendPayloadBad s.params pl = true) :
    exec (.hostSend pl) s = .next (s.respond .errInvalidPayload .unit) := by
  simp [exec, execHostSend, whenIdle, withRole, ho, hl, hw, hr, hp]

theorem exec_hostSend_transmits (hl : s.link = .connected) (hw : s.cfgWritten = true) (hr : s.cfgRole = .sender)
    (hp : sendPayloadBad s.params pl = false) :
    exec (.hostSend pl) s = .next (((s.parserReset.setTxLen pl.length).transmitFirst
      (infoFrame s.params s.params.aS s.ns pl)).setOp .sendWaitAck) := by
  simp [exec, execHostSend, whenIdle, withRole, ho, hl, hw, hr, hp]

end

/-- Settles O26: one equation of SEND for each check, and an idle core's answer only logs. -/
theorem sendChecksInOrder : Obligations.SendChecksInOrder := by
  unfold Obligations.SendChecksInOrder
  intro s pl ho
  refine ⟨fun hl => ?notOpen, fun hl hw hr => ?wrongRole, fun hl hw hr hbad => ?badPayload⟩
  case notOpen => rw [exec_hostSend_notOpen ho pl hl, respond_of_idle ho]
  case wrongRole => rw [exec_hostSend_wrongRole ho pl hl hw hr, respond_of_idle ho]
  case badPayload =>
    rw [exec_hostSend_badPayload ho pl hl hw hr ((sendPayloadBad_iff s.params pl).2 hbad), respond_of_idle ho]

/-- Settles O27: SEND passes its checks, and the state after the first transmission is written out. -/
theorem sendTransmitsFrame : Obligations.SendTransmitsFrame := by
  unfold Obligations.SendTransmitsFrame
  intro s pl ho hl hw hr h1 hP
  rw [exec_hostSend_transmits ho pl hl hw hr ((sendPayloadBad_eq_false_iff s.params pl).2 ⟨h1, hP⟩)]
  rfl

/-! ### RR (R322, R323, R325) -/

section
variable {s : State} {m : Bit}

theorem exec_rr (m : Bit) (s : State) : exec (if m then .rr1 else .rr0) s = ackReceived m s := by
  cases m <;> rfl

theorem ackReceived_of_ne_ns (ho : s.op = .sendWaitAck) (hm : m = !s.ns) :
    ackReceived m s = .next ((s.disarm.toggleNs.countBytes s.txLen).respond .ok (.bytesSent s.txLen)) := by
  simp only [ackReceived, ho, if_pos hm]

theorem ackReceived_of_eq_ns (ho : s.op = .sendWaitAck) (hm : m = s.ns) : ackReceived m s = .next s := by
  have hne : m ≠ !s.ns := by simp [hm]
  simp only [ackReceived, ho, if_neg hne]

theorem ackReceived_ignored (hi : s.op ≠ .idle) (hs : s.op ≠ .sendWaitAck) : ackReceived m s = .next s := by
  unfold ackReceived
  split
  case h_1 ho => exact absurd ho hi
  case h_2 ho => exact absurd ho hs
  all_goals rfl

theorem ackReceived_of_idle (ho : s.op = .idle) : ackReceived m s = .refused .rxNotEnabled := by
  simp only [ackReceived, ho]

end

/-- Settles O28: both RR frames are the one column SUP(RRm), whose send wait splits on the bit carried. -/
theorem receiverReadyMeaning : Obligations.ReceiverReadyMeaning := by
  unfold Obligations.ReceiverReadyMeaning
  intro s m
  rw [exec_rr]
  refine ⟨fun ho hm => ?acknowledged, ackReceived_of_eq_ns, ackReceived_ignored, ackReceived_of_idle⟩
  case acknowledged =>
    rw [ackReceived_of_ne_ns ho hm]
    rfl

/-! ### REJ (R324) -/

section
variable {s : State}

theorem exec_rej {i : Instr} (hi : i = .rej0 ∨ i = .rej1) (s : State) : exec i s = rejReceived s := by
  rcases hi with rfl | rfl <;> rfl

theorem rejReceived_of_sendWaitAck (ho : s.op = .sendWaitAck) : rejReceived s = retransmitOrFail s := by
  simp only [rejReceived, ho]

theorem rejReceived_ignored (hi : s.op ≠ .idle) (hs : s.op ≠ .sendWaitAck) : rejReceived s = .next s := by
  unfold rejReceived
  split
  case h_1 ho => exact absurd ho hi
  case h_2 ho => exact absurd ho hs
  all_goals rfl

theorem rejReceived_of_idle (ho : s.op = .idle) : rejReceived s = .refused .rxNotEnabled := by
  simp only [rejReceived, ho]

end

/-- Settles O29: both REJ frames are the one column SUP(REJm), whose send wait splits on the attempts left. -/
theorem rejectMeaning : Obligations.RejectMeaning := by
  unfold Obligations.RejectMeaning
  intro s i hi
  rw [exec_rej hi]
  refine ⟨fun ho hw hm => ?again, fun ho hw hm => ?exhausted, rejReceived_ignored, rejReceived_of_idle⟩
  case again =>
    rw [rejReceived_of_sendWaitAck ho, retransmitOrFail_of_lt hw hm]
    rfl
  case exhausted =>
    rw [rejReceived_of_sendWaitAck ho, retransmitOrFail_of_le hw hm, raiseErr_eq, ho]
    rfl

/-! ### RECEIVE (R330) -/

section
variable {s : State} (ho : s.op = .idle)
include ho

theorem exec_hostReceive_notOpen (hl : s.link ≠ .connected) :
    exec .hostReceive s = .next (s.respond .errNotOpen .unit) := by
  simp [exec, execHostReceive, whenIdle, ho, hl]

theorem exec_hostReceive_wrongRole (hl : s.link = .connected) (hw : s.cfgWritten = true)
    (hr : s.cfgRole ≠ .receiver) : exec .hostReceive s = .next (s.respond .errWrongRole .unit) := by
  simp [exec, execHostReceive, whenIdle, withRole, ho, hl, hw, hr]

theorem exec_hostReceive_peerClosing (hl : s.link = .connected) (hw : s.cfgWritten = true)
    (hr : s.cfgRole = .receiver) (hd : s.discPending = true) :
    exec .hostReceive s = .next (s.respond .peerClosing .unit) := by
  simp [exec, execHostReceive, whenIdle, withRole, ho, hl, hw, hr, hd]

theorem exec_hostReceive_waits (hl : s.link = .connected) (hw : s.cfgWritten = true)
    (hr : s.cfgRole = .receiver) (hd : s.discPending = false) :
    exec .hostReceive s = .next (s.parserReset.setOp .recvWait) := by
  simp [exec, execHostReceive, whenIdle, withRole, ho, hl, hw, hr, hd]

end

/-- Settles O30: one equation of RECEIVE for each check, and an idle core's answer only logs. -/
theorem receiveCommandMeaning : Obligations.ReceiveCommandMeaning := by
  unfold Obligations.ReceiveCommandMeaning
  intro s ho
  refine ⟨fun hl => ?notOpen, fun hl hw hr => ?wrongRole, fun hl hw hr hd => ?peerClosing,
    fun hl hw hr hd => ?waits⟩
  case notOpen => rw [exec_hostReceive_notOpen ho hl, respond_of_idle ho]
  case wrongRole => rw [exec_hostReceive_wrongRole ho hl hw hr, respond_of_idle ho]
  case peerClosing => rw [exec_hostReceive_peerClosing ho hl hw hr hd, respond_of_idle ho]
  case waits =>
    rw [exec_hostReceive_waits ho hl hw hr hd]
    rfl

/-! ### INFO (R331, R332) -/

theorem ctrl_rrKind (p : Params) (n : Bit) : ctrl p (rrKind n) = if n then p.cRr1 else p.cRr0 := by
  cases n <;> rfl

theorem ctrl_rrKind_not (p : Params) (n : Bit) : ctrl p (rrKind !n) = if n then p.cRr0 else p.cRr1 := by
  cases n <;> rfl

theorem ctrl_rejKind (p : Params) (n : Bit) : ctrl p (rejKind n) = if n then p.cRej1 else p.cRej0 := by
  cases n <;> rfl

section
variable {s : State} {q : Bit} {pl : Bytes}

theorem exec_info (q : Bit) (pl : Bytes) (s : State) :
    exec (if q then .i1 pl else .i0 pl) s = infoReceived q pl s := by
  cases q <;> rfl

theorem infoReceived_of_eq_nr (ho : s.op = .recvWait) (hq : q = s.nr) :
    infoReceived q pl s = .next (s.deliver pl) := by
  simp only [infoReceived, ho, if_pos hq]

theorem infoReceived_of_ne_nr (ho : s.op = .recvWait) (hq : q ≠ s.nr) :
    infoReceived q pl s = .next (s.emitReply (rrKind s.nr)) := by
  simp only [infoReceived, ho, if_neg hq]

theorem infoReceived_ignored (hi : s.op ≠ .idle) (hs : s.op ≠ .recvWait) : infoReceived q pl s = .next s := by
  unfold infoReceived
  split
  case h_1 ho => exact absurd ho hi
  case h_2 ho => exact absurd ho hs
  all_goals rfl

theorem infoReceived_of_idle (ho : s.op = .idle) : infoReceived q pl s = .refused .rxNotEnabled := by
  simp only [infoReceived, ho]

end

/-- Settles O31: both I frames are the one column INFO(s, pl), whose receive wait splits on the bit carried. -/
theorem informationMeaning : Obligations.InformationMeaning := by
  unfold Obligations.InformationMeaning
  intro s q pl
  rw [exec_info]
  refine ⟨fun ho hq => ?delivered, fun ho hq => ?duplicate, infoReceived_ignored, infoReceived_of_idle⟩
  case delivered => rw [infoReceived_of_eq_nr ho hq, deliver_eq, ctrl_rrKind_not]
  case duplicate => rw [infoReceived_of_ne_nr ho hq, emitReply_eq, ctrl_rrKind]

/-! ### CKFAIL and OVERFLOW (R333; spec/60_exceptions.md R403) -/

section
variable {s : State}

theorem ckfailReceived_of_recvWait (ho : s.op = .recvWait) :
    ckfailReceived s = .next (s.emitReply (rejKind s.nr)) := by
  simp only [ckfailReceived, ho, State.emitReply]

theorem ckfailReceived_ignored (hi : s.op ≠ .idle) (hs : s.op ≠ .recvWait) : ckfailReceived s = .next s := by
  unfold ckfailReceived
  split
  case h_1 ho => exact absurd ho hi
  case h_2 ho => exact absurd ho hs
  all_goals rfl

theorem overflowReceived_of_ne_idle (hi : s.op ≠ .idle) :
    overflowReceived s = .next (s.raiseErr .errBufferOverflow) :=
  if_neg hi

end

theorem handleSignal_ckfail (run : Instr → State → Result) (q : Bit) (s : State) :
    handleSignal run (.ckfail q) s = ckfailReceived s := rfl

theorem handleSignal_overflow (run : Instr → State → Result) (s : State) :
    handleSignal run .overflow s = overflowReceived s := rfl

/-- Settles O32: neither signal runs an instruction; CKFAIL is the reply REJ(nr), OVERFLOW the failure of any wait. -/
theorem failureSignalsMeaning : Obligations.FailureSignalsMeaning := by
  unfold Obligations.FailureSignalsMeaning
  intro run s q
  rw [handleSignal_ckfail, handleSignal_overflow]
  refine ⟨fun ho => ?answered, ckfailReceived_ignored, fun hi => ?overflow⟩
  case answered => rw [ckfailReceived_of_recvWait ho, emitReply_eq, ctrl_rejKind]
  case overflow => rw [overflowReceived_of_ne_idle hi, raiseErr_eq, List.append_assoc]

end Sys2Proof.Machine
end

section
/-! SUPPORT. Failing (spec/60_exceptions.md R401, R404): `Cleanup` in the two waits of a transfer, which keep the
session, and in the five waits of an `open` or a `close`, which give it up. -/

namespace Sys2Proof.Machine

section
variable {o : Op}

/-- `Cleanup` of a `send` or `receive` (R404). -/
theorem cleanup_of_transferWait (ho : o = .sendWaitAck ∨ o = .recvWait) (l : Link) :
    cleanupRecords o = [] ∧ cleanupLink o l = l := by
  rcases ho with rfl | rfl <;> exact ⟨rfl, rfl⟩

/-- `Cleanup` of an `open` or `close` (R404). -/
theorem cleanup_of_sessionWait (ho : o = .openTxWaitUa ∨ o = .openRxWaitSet ∨ o = .closeTxWaitDisc ∨
    o = .closeRxWaitDisc ∨ o = .closeRxWaitUa) (l : Link) :
    cleanupRecords o = [.chanRestore, .chanClose] ∧ cleanupLink o l = .disconnected := by
  rcases ho with rfl | rfl | rfl | rfl | rfl <;> exact ⟨rfl, rfl⟩

end

/-- Settles O35: `raise E` is one record update in every wait, and the kind of wait fixes what `Cleanup` adds to it. -/
theorem failureEffect : Obligations.FailureEffect := by
  unfold Obligations.FailureEffect
  intro s e
  refine ⟨fun ho => ?transfer, fun ho => ?session⟩
  case transfer =>
    obtain ⟨hrecords, hlink⟩ := cleanup_of_transferWait ho s.link
    rw [raiseErr_eq, hrecords, hlink, List.nil_append]
  case session =>
    obtain ⟨hrecords, hlink⟩ := cleanup_of_sessionWait ho s.link
    rw [raiseErr_eq, hrecords, hlink, List.cons_append, List.cons_append, List.nil_append]

end Sys2Proof.Machine
end


section
/-! SUPPORT. Frames through the parser (spec/40_frame_codec.md R160): a frame from the expected address gives its signal
on its last byte, so its bytes decode to its instruction and, read one by one, run it. -/

namespace Sys2Proof

/-! ### A frame gives its signal on its last byte -/

/-- The matching checksum makes the body an information frame (R218). -/
theorem checkBody_xorAll (q : Bit) (pl : Bytes) : checkBody q pl (xorAll pl) = .info q pl := if_pos rfl

section
variable {p : Params} (hp : p.legal = true) {e : Byte} (he : e = p.aS ∨ e = p.aR) {r : ParserRegs}
  (hr : r.state = .start)
include hp he hr

theorem rxFeed_infoFrame (q : Bit) {pl : Bytes} (hroom : pl.length + 1 ≤ p.rxBufCap) :
    rxFeed p e r (infoFrame p e q pl)
      = ({ state := .start, ctrl := infoKind q, buf := [] },
         List.replicate ((infoFrame p e q pl).length - 1) none ++ [some (.info q pl)]) := by
  have hbody := rxFeed_stuff hp e (pl ++ [xorAll pl])
    (r := { state := .headerOk, ctrl := infoKind q, buf := [] }) (.inr ⟨rfl, isInfo_infoKind q⟩)
    (by simpa using hroom) (by simp)
  have hclose := rxStep_close hp e (r := { state := .reading, ctrl := infoKind q, buf := pl ++ [xorAll pl] })
    rfl rfl
  rw [seq_infoKind, checkBody_xorAll] at hclose
  have hlen : (infoFrame p e q pl).length - 1 = 4 + (stuff p (pl ++ [xorAll pl])).length := by
    simp [infoFrame, header]; omega
  rw [hlen, ← List.replicate_append_replicate, infoFrame, rxFeed_append, rxFeed_append,
    rxFeed_header hp he _ hr, hbody, List.nil_append, rxFeed_cons, hclose]
  rfl

theorem rxFeed_supFrame (k : SupKind) :
    rxFeed p e r (supFrame p e (ctrl p k.kind))
      = ({ state := .start, ctrl := k.kind, buf := [] }, [none, none, none, none, some (.sup k)]) := by
  rw [supFrame, rxFeed_append, rxFeed_header hp he _ hr, rxFeed_cons, rxStep_of_headerOk_sup rfl rfl, if_pos rfl]
  rfl

end

/-- Settles O14: the header, the body and the closing FLAG of either format, one after the other. -/
theorem frameParsesToItsSignal : Obligations.FrameParsesToItsSignal := by
  unfold Obligations.FrameParsesToItsSignal
  intro p e r hp he hr
  exact ⟨fun q _ hroom => rxFeed_infoFrame hp he hr q hroom, rxFeed_supFrame hp he hr⟩

end Sys2Proof

namespace Sys2Proof.Machine

/-! ### The frame instructions -/

/-- The instruction of an information frame with sequence bit `q` (R103). -/
def infoInstr (q : Bit) (pl : Bytes) : Instr := if q then .i1 pl else .i0 pl

theorem frameKind?_instr (k : SupKind) : frameKind? k.instr = some k.kind := by cases k <;> rfl

theorem frameKind?_infoInstr (q : Bit) (pl : Bytes) : frameKind? (infoInstr q pl) = some (infoKind q) := by
  cases q <;> rfl

theorem encode_instr (p : Params) (a : Byte) (k : SupKind) :
    encode p a k.instr = .channel (supFrame p a (ctrl p k.kind)) := by cases k <;> rfl

theorem encode_infoInstr (p : Params) (a : Byte) (q : Bit) (pl : Bytes) :
    encode p a (infoInstr q pl) = .channel (infoFrame p a q pl) := by cases q <;> rfl

theorem wf_infoInstr {p : Params} {q : Bit} {pl : Bytes} :
    (infoInstr q pl).wf p = true ↔ pl.length + 1 ≤ p.rxBufCap := by
  cases q <;> simp [infoInstr, Instr.wf, payloadFits]

/-- A frame instruction is a supervisory kind's or an information frame's. -/
theorem frameInstr_cases {i : Instr} {k : FrameKind} (h : frameKind? i = some k) :
    (∃ j : SupKind, i = j.instr) ∨ ∃ q pl, i = infoInstr q pl := by
  cases i with
  | set => exact .inl ⟨.set, rfl⟩
  | ua => exact .inl ⟨.ua, rfl⟩
  | disc => exact .inl ⟨.disc, rfl⟩
  | rr0 => exact .inl ⟨.rr0, rfl⟩
  | rr1 => exact .inl ⟨.rr1, rfl⟩
  | rej0 => exact .inl ⟨.rej0, rfl⟩
  | rej1 => exact .inl ⟨.rej1, rfl⟩
  | i0 pl => exact .inr ⟨false, pl, rfl⟩
  | i1 pl => exact .inr ⟨true, pl, rfl⟩
  | hostOpen | hostSend | hostReceive | hostClose => cases h

theorem frameBytes_of_encode {p : Params} {a : Byte} {i : Instr} {bs : Bytes} (h : encode p a i = .channel bs) :
    frameBytes p a i = some bs := by simp only [frameBytes, h]

/-- The parser's answer to the bytes of a well-formed frame instruction: one signal, that instruction's, on the last
byte. -/
theorem rxFeed_frameBytes {p : Params} (hp : p.legal = true) {e : Byte} (he : e = p.aS ∨ e = p.aR) {r : ParserRegs}
    (hr : r.state = .start) {i : Instr} {k : FrameKind} {bs : Bytes} (hwf : i.wf p = true)
    (hk : frameKind? i = some k) (hb : frameBytes p e i = some bs) :
    ∃ n sg, sg.instr? = some i ∧
      rxFeed p e r bs = ({ state := .start, ctrl := k, buf := [] }, List.replicate n none ++ [some sg]) := by
  rcases frameInstr_cases hk with ⟨j, rfl⟩ | ⟨q, pl, rfl⟩
  · obtain rfl := Option.some.inj ((frameBytes_of_encode (encode_instr p e j)).symm.trans hb)
    obtain rfl := Option.some.inj ((frameKind?_instr j).symm.trans hk)
    exact ⟨4, .sup j, rfl, rxFeed_supFrame hp he hr j⟩
  · obtain rfl := Option.some.inj ((frameBytes_of_encode (encode_infoInstr p e q pl)).symm.trans hb)
    obtain rfl := Option.some.inj ((frameKind?_infoInstr q pl).symm.trans hk)
    exact ⟨_, .info q pl, rfl, rxFeed_infoFrame hp he hr q (wf_infoInstr.1 hwf)⟩

/-! ### Decoding a frame -/

/-- Bytes that give no signal only move the decoder's parser. -/
theorem decodeFrom_silent {p : Params} {e : Byte} {bs : Bytes} (cs : Bytes) {r r' : ParserRegs}
    (h : rxFeed p e r bs = (r', List.replicate bs.length none)) :
    decodeFrom p e r (bs ++ cs) = decodeFrom p e r' cs := by
  induction bs generalizing r with
  | nil =>
    obtain ⟨rfl, -⟩ := Prod.mk.inj h
    rfl
  | cons b bs ih =>
    rw [rxFeed_cons, List.length_cons, List.replicate_succ] at h
    obtain ⟨hregs, hsigs⟩ := Prod.mk.inj h
    obtain ⟨hnone, hrest⟩ := List.cons.inj hsigs
    have hstep : rxStep p e b r = ((rxStep p e b r).1, none) := Prod.ext rfl hnone
    rw [List.cons_append, decodeFrom, hstep]
    exact ih (Prod.ext hregs hrest)

/-- The byte that gives a frame's signal ends the decoding. -/
theorem decodeFrom_signal {p : Params} {e b : Byte} {r r' : ParserRegs} {sg : Signal} {i : Instr}
    (h : rxStep p e b r = (r', some sg)) (hi : sg.instr? = some i) :
    decodeFrom p e r [b] = .ok (i, []) := by
  rw [decodeFrom, h]
  cases sg with
  | sup | info => cases hi; rfl
  | ckfail | overflow => cases hi

theorem decode_frameBytes {p : Params} (hp : p.legal = true) {e : Byte} (he : e = p.aS ∨ e = p.aR) {i : Instr}
    {k : FrameKind} {bs : Bytes} (hwf : i.wf p = true) (hk : frameKind? i = some k)
    (hb : frameBytes p e i = some bs) : decode p e (.channel bs) = .ok i := by
  obtain ⟨n, sg, hi, hfeed⟩ := rxFeed_frameBytes hp he (r := .fresh) rfl hwf hk hb
  obtain ⟨cs, c, r1, rfl, hsilent, hlast⟩ := rxFeed_last hfeed
  rw [decode, decodeFrom_silent [c] hsilent, decodeFrom_signal hlast hi]

/-! ### Decoding a command word (spec/30_encoding.md R120, R121) -/

theorem ofBit_toBit (role : Role) : Role.ofBit role.toBit = role := by cases role <;> rfl

theorem decode_encode_hostCommand (p : Params) (a : Byte) {i : Instr} (h : frameKind? i = none) :
    decode p a (encode p a i) = .ok i := by
  cases i with
  | hostOpen role m t device baud =>
    change Decoded.ok (Instr.hostOpen (Role.ofBit role.toBit) m t device baud) = _
    rw [ofBit_toBit]
  | hostSend | hostReceive | hostClose => rfl
  | set | ua | disc | rr0 | rr1 | rej0 | rej1 | i0 | i1 => cases h

theorem encode_of_frameKind? (p : Params) (a : Byte) {i : Instr} {k : FrameKind} (h : frameKind? i = some k) :
    ∃ bs, encode p a i = .channel bs := by
  rcases frameInstr_cases h with ⟨j, rfl⟩ | ⟨q, pl, rfl⟩
  · exact ⟨_, encode_instr p a j⟩
  · exact ⟨_, encode_infoInstr p a q pl⟩

/-- Settles O4: a frame through the parser, a command through its CMD field. -/
theorem decodeOfEncode : Obligations.DecodeOfEncode := by
  unfold Obligations.DecodeOfEncode
  intro p a i hp ha hwf
  cases hk : frameKind? i with
  | none => exact decode_encode_hostCommand p a hk
  | some k =>
    obtain ⟨bs, hbs⟩ := encode_of_frameKind? p a hk
    rw [hbs]
    exact decode_frameBytes hp ha hwf hk (frameBytes_of_encode hbs)

/-! ### Running a frame (spec/41_receiver_fsm.md R240) -/

theorem peerAddr_cases (p : Params) (role : Role) : peerAddr p role = p.aS ∨ peerAddr p role = p.aR := by
  cases role
  · exact .inr rfl
  · exact .inl rfl

/-- The bytes of a frame instruction from the peer, read one by one in a wait, run that instruction. -/
theorem run_frame {s : State} {i : Instr} {k : FrameKind} {bs q : Bytes} {rest : List Input}
    (hl : s.params.legal = true) (ho : s.op ≠ .idle) (hw : s.cfgWritten = true) (hr : s.rx.state = .start)
    (hwf : i.wf s.params = true) (hk : frameKind? i = some k)
    (hb : frameBytes s.params (peerAddr s.params s.cfgRole) i = some bs) (hq : s.chanRx = bs ++ q)
    (hi : s.inputs = List.replicate bs.length .rxByte ++ rest) :
    core.run bs.length s
      = exec i { s with rx := { state := .start, ctrl := k, buf := [] }, chanRx := q, inputs := rest } := by
  obtain ⟨n, sg, hsg, hfeed⟩ := rxFeed_frameBytes hl (peerAddr_cases s.params s.cfgRole) hr hwf hk hb
  rw [run_signal hl ho hw hfeed hq hi, handleSignal_instr exec hsg]

/-- Settles O42: the frame's one signal comes on its last byte, and handling it is running the instruction. -/
theorem wholeFrameRunsInstruction : Obligations.WholeFrameRunsInstruction := by
  unfold Obligations.WholeFrameRunsInstruction
  exact fun _ _ _ _ _ _ hl ho hw hr hwf hk hb hq hi => run_frame hl ho hw hr hwf hk hb hq hi

end Sys2Proof.Machine
end


section
/-! SUPPORT. The codec's laws (spec/30_encoding.md R104, spec/40_frame_codec.md R156 to R159): what a legal profile is,
stuffing as one more byte for each FLAG and ESC, its inverse, and the one byte a frame holds at its two ends only. -/

namespace Sys2Proof

/-! ### The constraints, one by one (R104) -/

theorem all_allKinds_iff (f : FrameKind → Bool) : allKinds.all f = true ↔ ∀ k, f k = true := by
  simp only [List.all_eq_true]
  exact ⟨fun h k => h k (mem_allKinds k), fun h k _ => h k⟩

theorem plainByte_iff {p : Params} {b : Byte} : p.plainByte b = true ↔ b ≠ p.flag ∧ b ≠ p.esc := by
  simp [Params.plainByte]

theorem k1_iff (p : Params) : p.k1 = true ↔ p.flag ≠ p.esc := by simp [Params.k1]

theorem k2_iff (p : Params) : p.k2 = true ↔
    ∀ b : Byte, b = p.flag ∨ b = p.esc → b ≠ p.aS ∧ b ≠ p.aR ∧ ∀ k : FrameKind, b ≠ ctrl p k := by
  simp only [Params.k2, Bool.and_eq_true, all_allKinds_iff, plainByte_iff]
  constructor
  · rintro ⟨⟨hS, hR⟩, hk⟩ b (rfl | rfl)
    · exact ⟨hS.1.symm, hR.1.symm, fun k => (hk k).1.symm⟩
    · exact ⟨hS.2.symm, hR.2.symm, fun k => (hk k).2.symm⟩
  · intro h
    obtain ⟨hfS, hfR, hfk⟩ := h _ (.inl rfl)
    obtain ⟨heS, heR, hek⟩ := h _ (.inr rfl)
    exact ⟨⟨⟨hfS.symm, heS.symm⟩, hfR.symm, heR.symm⟩, fun k => ⟨(hfk k).symm, (hek k).symm⟩⟩

theorem k3_iff (p : Params) : p.k3 = true ↔ ∀ (a : Byte) (k : FrameKind), a = p.aS ∨ a = p.aR →
    a ^^^ ctrl p k ≠ p.flag ∧ a ^^^ ctrl p k ≠ p.esc := by
  simp only [Params.k3, Bool.and_eq_true, all_allKinds_iff, plainByte_iff]
  constructor
  · rintro h a k (rfl | rfl)
    · exact (h k).1
    · exact (h k).2
  · exact fun h k => ⟨h _ k (.inl rfl), h _ k (.inr rfl)⟩

theorem k4_iff (p : Params) : p.k4 = true ↔ ∀ j k : FrameKind, ctrl p j = ctrl p k → j = k := by
  simp only [Params.k4, all_allKinds_iff, decide_eq_true_eq]

theorem k5_iff (p : Params) : p.k5 = true ↔ p.aS ≠ p.aR := by simp [Params.k5]

theorem seqBitApart_iff (c0 c1 : Byte) :
    seqBitApart c0 c1 = true ↔ ∃ i, i < 8 ∧ c1 = c0 ||| (1#8 <<< i) ∧ c0.getLsbD i = false := by
  simp [seqBitApart]

theorem k6_iff (p : Params) : p.k6 = true ↔
    (∃ i, i < 8 ∧ p.cRr1 = p.cRr0 ||| (1#8 <<< i) ∧ p.cRr0.getLsbD i = false) ∧
    (∃ i, i < 8 ∧ p.cRej1 = p.cRej0 ||| (1#8 <<< i) ∧ p.cRej0.getLsbD i = false) ∧
    (∃ i, i < 8 ∧ p.cI1 = p.cI0 ||| (1#8 <<< i) ∧ p.cI0.getLsbD i = false) := by
  simp only [Params.k6, Bool.and_eq_true, seqBitApart_iff, and_assoc]

theorem k7_iff (p : Params) : p.k7 = true ↔ p.flag ≠ 0x5E#8 ∧ p.flag ≠ 0x5D#8 := by
  simp [Params.k7, escFollowFlag, escFollowEsc]

theorem capOk_iff (p : Params) : p.capOk = true ↔ p.maxPayload + 1 ≤ p.rxBufCap := by simp [Params.capOk]

/-- Settles O1: each constraint says what R104 writes, and the legality test stands before everything else in `step`. -/
theorem legalProfileMeetsConstraints : Obligations.LegalProfileMeetsConstraints := by
  unfold Obligations.LegalProfileMeetsConstraints
  refine ⟨fun p => ?_, fun s hs => ?_⟩
  · simp only [Params.legal, Bool.and_eq_true, k1_iff, k2_iff, k3_iff, k4_iff, k5_iff, k6_iff, k7_iff, capOk_iff,
      and_assoc]
  · simp [Machine.step, hs]

/-! ### One flipped bit (R159) -/

theorem one_shiftLeft_ne_zero {i : Nat} (hi : i < 8) : (1#8 <<< i) ≠ 0#8 := by
  have : ∀ j, j < 8 → (1#8 <<< j) ≠ 0#8 := by decide
  exact this i hi

/-- A flipped byte differs from the byte. -/
theorem flip_ne {i : Nat} (hi : i < 8) (b : Byte) : b ^^^ (1#8 <<< i) ≠ b := fun h =>
  one_shiftLeft_ne_zero hi (BitVec.xor_right_inj b |>.1 (h.trans BitVec.xor_zero.symm))

/-- Flipping bits of one byte flips the same bits of the checksum. -/
theorem xorAll_flip (xs ys : Bytes) (b m : Byte) :
    xorAll (xs ++ [b ^^^ m] ++ ys) = xorAll (xs ++ [b] ++ ys) ^^^ m := by
  simp only [xorAll_append, xorAll_cons, xorAll_nil, BitVec.xor_zero]
  ac_rfl

/-- Settles O7: the checksum of the flipped region is the flipped bit itself. -/
theorem checksumSeesSingleBit : Obligations.ChecksumSeesSingleBit := by
  unfold Obligations.ChecksumSeesSingleBit
  intro xs ys b i hi h0
  rw [xorAll_flip, h0, BitVec.zero_xor]
  exact one_shiftLeft_ne_zero hi

/-! ### The length of a stuffed region (R156) -/

/-- How many bytes stuffing escapes (R156). -/
def escapedCount (p : Params) (xs : Bytes) : Nat := xs.countP fun b => b == p.flag || b == p.esc

theorem length_stuffByte (p : Params) (b : Byte) : (stuffByte p b).length = 1 + escapedCount p [b] := by
  unfold stuffByte escapedCount
  split_ifs with hf he
  · simp [hf]
  · simp [he]
  · simp [hf, he]

theorem escapedCount_cons (p : Params) (b : Byte) (xs : Bytes) :
    escapedCount p (b :: xs) = escapedCount p [b] + escapedCount p xs :=
  List.countP_append (l₁ := [b])

theorem length_stuff (p : Params) (xs : Bytes) : (stuff p xs).length = xs.length + escapedCount p xs := by
  induction xs with
  | nil => rfl
  | cons b xs ih =>
    rw [stuff_cons, List.length_append, length_stuffByte, ih, escapedCount_cons p b xs, List.length_cons]
    omega

theorem length_stuff_region (p : Params) (pl : Bytes) :
    (stuff p (pl ++ [xorAll pl])).length = pl.length + 1 + escapedCount p (pl ++ [xorAll pl]) := by
  rw [length_stuff, List.length_append, List.length_singleton]

/-- Settles O8: by induction over the bytes, and for the region of an information frame as the case at hand. -/
theorem stuffingLength : Obligations.StuffingLength := by
  unfold Obligations.StuffingLength
  exact ⟨length_stuff, length_stuff_region⟩

/-! ### The lengths of the frames (spec/00_scope.md R11) -/

theorem length_supFrame (p : Params) (a c : Byte) : (supFrame p a c).length = 5 := rfl

theorem length_infoFrame (p : Params) (a : Byte) (q : Bit) (pl : Bytes) :
    (infoFrame p a q pl).length = 4 + (pl.length + 1 + escapedCount p (pl ++ [xorAll pl])) + 1 := by
  rw [infoFrame, List.length_append, List.length_append, length_stuff_region]
  rfl

/-- A region at most doubles, so a frame of a legal payload keeps the bound. -/
theorem length_infoFrame_le {p : Params} (a : Byte) (q : Bit) {pl : Bytes} (h : pl.length ≤ p.maxPayload) :
    (infoFrame p a q pl).length ≤ 4 + 2 * (p.maxPayload + 1) + 1 := by
  have hk : escapedCount p (pl ++ [xorAll pl]) ≤ (pl ++ [xorAll pl]).length := List.countP_le_length
  rw [List.length_append, List.length_singleton] at hk
  rw [length_infoFrame]
  omega

/-- Settles O11: the two formats and the bound on a frame that `send` accepts. -/
theorem frameLengths : Obligations.FrameLengths := by
  unfold Obligations.FrameLengths
  exact fun p a => ⟨length_supFrame p a, length_infoFrame p a, fun q _ h => length_infoFrame_le a q h⟩

/-! ### Destuffing (R157) -/

section
variable (p : Params) (ys : Bytes)

theorem destuff_escFollowFlag :
    destuff p (p.esc :: escFollowFlag :: ys) = (destuff p ys).map (p.flag :: ·) := by simp [destuff]

theorem destuff_escFollowEsc :
    destuff p (p.esc :: escFollowEsc :: ys) = (destuff p ys).map (p.esc :: ·) := by
  have hne : escFollowEsc ≠ escFollowFlag := by decide
  simp [destuff, hne]

theorem destuff_cons {b : Byte} (hb : b ≠ p.esc) : destuff p (b :: ys) = (destuff p ys).map (b :: ·) := by
  cases ys <;> simp [destuff, hb]

theorem destuff_badFollower {f : Byte} (hf : f ≠ escFollowFlag) (he : f ≠ escFollowEsc) :
    destuff p (p.esc :: f :: ys) = none := by simp [destuff, hf, he]

theorem destuff_dangling : destuff p [p.esc] = none := by simp [destuff]

/-- The stuffed form of one byte is read as that byte. -/
theorem destuff_stuffByte_append (b : Byte) :
    destuff p (stuffByte p b ++ ys) = (destuff p ys).map (b :: ·) := by
  unfold stuffByte
  split_ifs with hf he
  · rw [hf]
    exact destuff_escFollowFlag p ys
  · rw [he]
    exact destuff_escFollowEsc p ys
  · exact destuff_cons p ys he

end

theorem destuff_stuff (p : Params) (xs : Bytes) : destuff p (stuff p xs) = some xs := by
  induction xs with
  | nil => rfl
  | cons b xs ih => rw [stuff_cons, destuff_stuffByte_append, ih, Option.map_some]

/-- Settles O9: the inverse by induction over the bytes, then the readings of a byte one by one. -/
theorem destuffInvertsStuff : Obligations.DestuffInvertsStuff := by
  unfold Obligations.DestuffInvertsStuff
  exact fun p _ => ⟨destuff_stuff p, destuff_escFollowFlag p, destuff_escFollowEsc p,
    fun _ ys hb => destuff_cons p ys hb, fun _ ys hf he => destuff_badFollower p ys hf he, destuff_dangling p⟩

/-! ### FLAG at the two ends (R158) -/

section
variable {p : Params} (hp : p.legal = true) {a : Byte} (ha : a = p.aS ∨ a = p.aR)
include hp ha

theorem flag_not_mem_header_fields (k : FrameKind) : p.flag ∉ [a, ctrl p k, a ^^^ ctrl p k] := by
  have haddr := (legal_addr_ne_flag hp ha).symm
  have hctrl := (legal_ctrl_plain hp k).1.symm
  have hbcc := (legal_bcc1_plain hp ha k).1.symm
  simp [haddr, hctrl, hbcc]

theorem infoFrame_flag_at_ends (q : Bit) (pl : Bytes) :
    ∃ body, infoFrame p a q pl = p.flag :: (body ++ [p.flag]) ∧ p.flag ∉ body := by
  refine ⟨[a, ctrl p (infoKind q), a ^^^ ctrl p (infoKind q)] ++ stuff p (pl ++ [xorAll pl]), rfl, ?_⟩
  rw [List.mem_append, not_or]
  exact ⟨flag_not_mem_header_fields hp ha (infoKind q), flag_not_mem_stuff hp _⟩

theorem supFrame_flag_at_ends (k : FrameKind) :
    ∃ body, supFrame p a (ctrl p k) = p.flag :: (body ++ [p.flag]) ∧ body.length = 3 ∧ p.flag ∉ body :=
  ⟨[a, ctrl p k, a ^^^ ctrl p k], rfl, rfl, flag_not_mem_header_fields hp ha k⟩

end

/-- Settles O10: the header's fields by K2 and K3, the stuffed region by K1 and K7. -/
theorem noUnescapedFlag : Obligations.NoUnescapedFlag := by
  unfold Obligations.NoUnescapedFlag
  exact fun p a hp ha => ⟨infoFrame_flag_at_ends hp ha, fun k => supFrame_flag_at_ends hp ha k.kind⟩

/-! ### The opcode table (spec/30_encoding.md R103, R120) -/

/-- Settles O3: each word, and each frame of the test vectors, is read by evaluating the decoder on it. -/
theorem tableWordsDecode : Obligations.TableWordsDecode := by
  unfold Obligations.TableWordsDecode
  decide

end Sys2Proof
end


section
/-! SUPPORT. The parser's invariant (spec/41_receiver_fsm.md R229), and what it signals when one bit of a frame's
checksum is flipped (spec/43_arq.md R338). -/

namespace Sys2Proof

open Machine (ParserOk inBody)

/-! ### The parser between two bytes (R225, R229) -/

/-- A parser result that keeps the invariant, at rest with an empty buffer if it gave a signal. -/
def KeepsOk (p : Params) (x : ParserRegs × Option Signal) : Prop :=
  ParserOk p x.1 ∧ (x.2 ≠ none → x.1.state = .start ∧ x.1.buf = [])

section
variable {p : Params} {r : ParserRegs}

/-- Outside a body an empty buffer is all the invariant asks. -/
theorem parserOk_of_empty {st : RxState} {k : FrameKind} (h : inBody st = false) :
    ParserOk p { state := st, ctrl := k, buf := [] } :=
  ⟨Nat.zero_le _, fun _ => rfl, fun hin => absurd (h.symm.trans hin) (by decide)⟩

theorem parserOk_of_body {st : RxState} {k : FrameKind} {buf : Bytes} (hb : buf.length ≤ p.rxBufCap)
    (h : inBody st = true) (hk : k.isInfo = true) : ParserOk p { state := st, ctrl := k, buf := buf } :=
  ⟨hb, fun hout => absurd (h.symm.trans hout) (by decide), fun _ => hk⟩

theorem keepsOk_silent {r' : ParserRegs} (h : ParserOk p r') : KeepsOk p (r', none) :=
  ⟨h, fun hne => absurd rfl hne⟩

/-- To START with an empty buffer, whatever the signal. -/
theorem keepsOk_rest (k : FrameKind) (sig : Option Signal) :
    KeepsOk p ({ state := .start, ctrl := k, buf := [] }, sig) :=
  ⟨parserOk_of_empty rfl, fun _ => ⟨rfl, rfl⟩⟩

/-- A header byte leaves the buffer empty and the parser outside a body. -/
theorem keepsOk_header {st : RxState} (hb : r.buf = []) (k : FrameKind) (hst : inBody st = false) :
    KeepsOk p ({ r with state := st, ctrl := k }, none) := by
  rw [hb]
  exact keepsOk_silent (parserOk_of_empty hst)

section
variable (hb : r.buf.length ≤ p.rxBufCap) (hi : r.ctrl.isInfo = true)
include hb hi

theorem rxStore_keepsOk (v : Byte) : KeepsOk p (rxStore p v r) := by
  by_cases hfull : r.buf.length = p.rxBufCap
  · rw [rxStore_full hfull]
    exact keepsOk_rest _ _
  · rw [rxStore_of_not_full hfull]
    exact keepsOk_silent (parserOk_of_body (by rw [List.length_append, List.length_singleton]; omega) rfl hi)

theorem rxReading_keepsOk (b : Byte) : KeepsOk p (rxReading p b r) := by
  by_cases he : b = p.esc
  · rw [rxReading_esc he]
    exact keepsOk_silent (parserOk_of_body hb rfl hi)
  · by_cases hf : b = p.flag
    · rcases List.eq_nil_or_concat' r.buf with hnil | ⟨pl, chk, hcat⟩
      · rw [rxReading_flag_empty he hf hnil, hnil]
        exact keepsOk_rest _ _
      · rw [rxReading_flag he hf hcat]
        exact keepsOk_rest _ _
    · rw [rxReading_other he hf]
      exact rxStore_keepsOk hb hi b

theorem rxEscape_keepsOk (b : Byte) : KeepsOk p (rxEscape p b r) := by
  by_cases hf : b = escFollowFlag
  · rw [rxEscape_flag hf]
    exact rxStore_keepsOk hb hi p.flag
  · by_cases he : b = escFollowEsc
    · rw [rxEscape_esc he]
      exact rxStore_keepsOk hb hi p.esc
    · rw [rxEscape_other hf he]
      exact keepsOk_rest _ _

end

/-- Every byte keeps the parser's invariant, in every state of the parser. -/
theorem rxStep_keepsOk (e b : Byte) (h : ParserOk p r) : KeepsOk p (rxStep p e b r) := by
  cases hs : r.state with
  | start =>
    rw [rxStep_of_start hs]
    exact keepsOk_header (h.emptyOutside (by rw [hs]; rfl)) r.ctrl (by split <;> rfl)
  | flagSeen =>
    rw [rxStep_of_flagSeen hs]
    exact keepsOk_header (h.emptyOutside (by rw [hs]; rfl)) r.ctrl (by split_ifs <;> rfl)
  | addrSeen =>
    have hnil := h.emptyOutside (by rw [hs]; rfl)
    cases hk : ctrlDecode p b with
    | some k =>
      rw [rxStep_of_addrSeen_ctrl hs hk]
      exact keepsOk_header hnil k rfl
    | none =>
      rw [rxStep_of_addrSeen_none hs hk]
      exact keepsOk_header hnil r.ctrl (by split <;> rfl)
  | ctrlSeen =>
    have hnil := h.emptyOutside (by rw [hs]; rfl)
    by_cases hb : b = e ^^^ ctrl p r.ctrl
    · rw [rxStep_of_ctrlSeen_bcc hs hb]
      exact keepsOk_silent (parserOk_of_empty rfl)
    · rw [rxStep_of_ctrlSeen_ne_bcc hs hb]
      exact keepsOk_header hnil r.ctrl (by split <;> rfl)
  | headerOk =>
    cases hk : r.ctrl.sup? with
    | none =>
      have hi := (isInfo_iff _).2 hk
      rw [rxStep_body (.inr ⟨hs, hi⟩)]
      exact rxReading_keepsOk h.bounded hi b
    | some k =>
      rw [rxStep_of_headerOk_sup hs (kind_of_sup? hk).symm, h.emptyOutside (by rw [hs]; rfl)]
      exact keepsOk_rest _ _
  | reading =>
    rw [rxStep_body (.inl hs)]
    exact rxReading_keepsOk h.bounded (h.infoInside (by rw [hs]; rfl)) b
  | escape =>
    rw [rxStep_of_escape hs]
    exact rxEscape_keepsOk h.bounded (h.infoInside (by rw [hs]; rfl)) b

end

/-- Settles O13: state by state of the parser. -/
theorem parserKeepsInvariant : Obligations.ParserKeepsInvariant := by
  unfold Obligations.ParserKeepsInvariant
  exact fun _ e b _ _ h => rxStep_keepsOk e b h

/-! ### The signals of a byte string -/

/-- The signals the parser gives while it is fed some bytes, in order. -/
def rxSignals (p : Params) (e : Byte) (r : ParserRegs) (bs : Bytes) : List Signal :=
  (rxFeed p e r bs).2.filterMap id

section
variable {p : Params} {e : Byte} {r r' : ParserRegs}

theorem rxSignals_nil : rxSignals p e r [] = [] := rfl

theorem rxSignals_silent {b : Byte} {bs : Bytes} (h : rxStep p e b r = (r', none)) :
    rxSignals p e r (b :: bs) = rxSignals p e r' bs := by
  rw [rxSignals, rxFeed_cons, h]
  rfl

theorem rxSignals_signal {b : Byte} {bs : Bytes} {sg : Signal} (h : rxStep p e b r = (r', some sg)) :
    rxSignals p e r (b :: bs) = sg :: rxSignals p e r' bs := by
  rw [rxSignals, rxFeed_cons, h]
  rfl

/-- After some silent bytes, the signals are those of the rest. -/
theorem rxSignals_append_silent {xs ys : Bytes} {n : Nat} (h : rxFeed p e r xs = (r', List.replicate n none)) :
    rxSignals p e r (xs ++ ys) = rxSignals p e r' ys := by
  have hnone : (List.replicate n (none : Option Signal)).filterMap id = [] := by simp
  rw [rxSignals, rxFeed_append, h, List.filterMap_append, hnone]
  rfl

/-- In START, a byte that is not FLAG is skipped. -/
theorem rxSignals_start_skip {b : Byte} {bs : Bytes} (hs : r.state = .start) (hb : b ≠ p.flag) :
    rxSignals p e r (b :: bs) = rxSignals p e r bs := by
  have hstep : rxStep p e b r = (r, none) := by rw [rxStep_of_start hs, if_neg hb, ← hs]
  rw [rxSignals_silent hstep]

/-- In START, one FLAG gives no signal. -/
theorem rxSignals_start_flag (hs : r.state = .start) : rxSignals p e r [p.flag] = [] := by
  rw [rxSignals_silent (rxStep_of_start hs), rxSignals_nil]

end

/-! ### A body byte of an information frame (R217 to R222, R227) -/

section
variable {p : Params} (hp : p.legal = true) {e : Byte} {r : ParserRegs} {q : Bit} (hb : takesBody r)
  (hk : r.ctrl = infoKind q) {bs : Bytes}
include hb

theorem rxSignals_body_esc : rxSignals p e r (p.esc :: bs) = rxSignals p e { r with state := .escape } bs :=
  rxSignals_silent ((rxStep_body hb).trans (rxReading_esc rfl))

theorem rxSignals_body_store {b : Byte} (he : b ≠ p.esc) (hf : b ≠ p.flag) (hroom : r.buf.length < p.rxBufCap) :
    rxSignals p e r (b :: bs) = rxSignals p e { r with state := .reading, buf := r.buf ++ [b] } bs :=
  rxSignals_silent ((rxStep_body hb).trans ((rxReading_other he hf).trans (rxStore_room hroom)))

theorem rxSignals_body_overflow {b : Byte} (he : b ≠ p.esc) (hf : b ≠ p.flag)
    (hfull : r.buf.length = p.rxBufCap) :
    rxSignals p e r (b :: bs) = .overflow :: rxSignals p e { r with state := .start, buf := [] } bs :=
  rxSignals_signal ((rxStep_body hb).trans ((rxReading_other he hf).trans (rxStore_full hfull)))

include hp hk

/-- A FLAG over a body whose bytes, checksum included, have an XOR other than 0 signals CKFAIL; so does one over an
empty body (R218). -/
theorem rxSignals_body_flag (hx : r.buf = [] ∨ xorAll r.buf ≠ 0#8) :
    ∃ r', r'.state = .start ∧ rxSignals p e r (p.flag :: bs) = .ckfail q :: rxSignals p e r' bs := by
  have hfe := legal_flag_ne_esc hp
  have hq : r.ctrl.seq = q := by rw [hk, seq_infoKind]
  rcases List.eq_nil_or_concat' r.buf with hnil | ⟨pl, chk, hcat⟩
  · refine ⟨{ r with state := .start }, rfl, ?_⟩
    rw [← hq]
    exact rxSignals_signal ((rxStep_body hb).trans (rxReading_flag_empty hfe rfl hnil))
  · refine ⟨{ r with state := .start, buf := [] }, rfl, rxSignals_signal ?_⟩
    have hne : xorAll pl ≠ chk := by
      rintro rfl
      simp [hcat] at hx
    rw [rxStep_body hb, rxReading_flag hfe rfl hcat, hq, checkBody, if_neg hne]

/-- A whole body whose XOR is not 0, and its closing FLAG. -/
theorem rxSignals_body_close (hx : r.buf = [] ∨ xorAll r.buf ≠ 0#8) :
    rxSignals p e r [p.flag] = [.ckfail q] := by
  obtain ⟨r', -, h⟩ := rxSignals_body_flag hp hb hk (e := e) (bs := []) hx
  rw [h, rxSignals_nil]

end

section
variable {p : Params} {e : Byte} {r : ParserRegs} {q : Bit}

/-- After ESC, a byte that is no follower signals CKFAIL and is dropped (R222). -/
theorem rxSignals_escape_bad (hs : r.state = .escape) (hk : r.ctrl = infoKind q) {b : Byte} {bs : Bytes}
    (hf : b ≠ escFollowFlag) (he : b ≠ escFollowEsc) :
    rxSignals p e r (b :: bs) = .ckfail q :: rxSignals p e { r with state := .start, buf := [] } bs := by
  have hq : r.ctrl.seq = q := by rw [hk, seq_infoKind]
  rw [← hq]
  exact rxSignals_signal ((rxStep_of_escape hs).trans (rxEscape_other hf he))

/-- After ESC, FLAG is no follower (K7). -/
theorem rxSignals_escape_flag (hp : p.legal = true) (hs : r.state = .escape) (hk : r.ctrl = infoKind q) :
    rxSignals p e r [p.flag] = [.ckfail q] := by
  obtain ⟨hf, he⟩ := legal_flag_no_follower hp
  rw [rxSignals_escape_bad hs hk hf he, rxSignals_nil]

end

/-! ### The flipped bit of a checksum (R338) -/

/-- The payload of an information frame is in the parser, which takes the next body byte. -/
structure PayloadRead (r : ParserRegs) (q : Bit) (pl : Bytes) : Prop where
  body : takesBody r
  kind : r.ctrl = infoKind q
  buffer : r.buf = pl

/-- The signals of an information frame are those of the bytes after its payload. -/
theorem rxSignals_after_payload {p : Params} (hp : p.legal = true) {e : Byte} (he : e = p.aS ∨ e = p.aR) (q : Bit)
    (pl : Bytes) {r : ParserRegs} (hr : r.state = .start) (hroom : pl.length ≤ p.rxBufCap) :
    ∃ r', PayloadRead r' q pl ∧ ∀ ys, rxSignals p e r (header p e (ctrl p (infoKind q)) ++ stuff p pl ++ ys)
      = rxSignals p e r' ys := by
  obtain ⟨n, r', hfeed, hbody, hk, hbuf⟩ := rxFeed_payload hp he q pl hr hroom
  exact ⟨r', ⟨hbody, hk, hbuf⟩, fun ys => rxSignals_append_silent hfeed⟩

/-- The value of a region with a stored checksum byte is 0 only if that byte is the checksum (R159). -/
theorem xorAll_concat_ne_zero {pl : Bytes} {chk : Byte} (h : chk ≠ xorAll pl) : xorAll (pl ++ [chk]) ≠ 0#8 := by
  rw [xorAll_concat]
  exact fun h0 => h (BitVec.xor_eq_zero_iff.1 h0).symm

section
variable {p : Params} (e : Byte) {r : ParserRegs} {q : Bit} {pl : Bytes} (hr : PayloadRead r q pl)
include hr

/-- A wrong follower of the checksum's ESC (R338 (d)). -/
theorem rxSignals_wrongFollower {c : Byte} (hf : c ≠ escFollowFlag) (he : c ≠ escFollowEsc) :
    rxSignals p e r [p.esc, c, p.flag] = [.ckfail q] := by
  rw [rxSignals_body_esc hr.body, rxSignals_escape_bad (r := { r with state := .escape }) rfl hr.kind hf he,
    rxSignals_start_flag rfl]

/-- With room for the literal only, its follower overflows the buffer. -/
theorem rxSignals_escapeBecomesLiteral_full {c f : Byte} (hce : c ≠ p.esc) (hcf : c ≠ p.flag) (hf : f ≠ p.flag)
    (hfe : f ≠ p.esc) (hfull : pl.length + 1 = p.rxBufCap) : rxSignals p e r [c, f, p.flag] = [.overflow] := by
  obtain ⟨hb, -, rfl⟩ := hr
  rw [rxSignals_body_store hb hce hcf (by omega),
    rxSignals_body_overflow (.inl rfl) hfe hf (by rw [List.length_append]; exact hfull), rxSignals_start_flag rfl]

variable (hp : p.legal = true)
include hp

/-- A wrong checksum byte in the clear: as FLAG it closes the body early, as ESC it swallows the FLAG, else it is
stored and does not match (R338 (a) to (c)). -/
theorem rxSignals_wrongChecksum (hroom : pl.length + 1 ≤ p.rxBufCap) {c : Byte} (hc : c ≠ xorAll pl)
    (hflag : c = p.flag → xorAll pl ≠ 0#8) : rxSignals p e r [c, p.flag] = [.ckfail q] := by
  obtain ⟨hb, hk, rfl⟩ := hr
  by_cases he : c = p.esc
  · rw [he, rxSignals_body_esc hb]
    exact rxSignals_escape_flag hp rfl hk
  · by_cases hf : c = p.flag
    · obtain ⟨r', hstart, h⟩ := rxSignals_body_flag hp hb hk (e := e) (bs := [p.flag]) (.inr (hflag hf))
      rw [hf, h, rxSignals_start_flag hstart]
    · rw [rxSignals_body_store hb he hf hroom]
      exact rxSignals_body_close hp (.inl rfl) hk (.inr (xorAll_concat_ne_zero hc))

/-- The checksum's ESC become FLAG: the body closes early, over the payload alone (R338 (d)). -/
theorem rxSignals_escapeBecomesFlag {f : Byte} (hf : f ≠ p.flag) (hx : pl = [] ∨ xorAll pl ≠ 0#8) :
    rxSignals p e r [p.flag, f, p.flag] = [.ckfail q] := by
  obtain ⟨hb, hk, rfl⟩ := hr
  obtain ⟨r', hstart, h⟩ := rxSignals_body_flag hp hb hk (e := e) (bs := [f, p.flag]) hx
  rw [h, rxSignals_start_skip hstart hf, rxSignals_start_flag hstart]

/-- The checksum's ESC become a literal: it is stored, and its follower is read as a body byte of its own
(R338 (d)). -/
theorem rxSignals_escapeBecomesLiteral {c f : Byte} (hce : c ≠ p.esc) (hcf : c ≠ p.flag) (hf : f ≠ p.flag)
    (hroom : pl.length + 1 ≤ p.rxBufCap)
    (hstored : f ≠ p.esc → pl.length + 2 ≤ p.rxBufCap ∧ xorAll pl ^^^ c ≠ f) :
    rxSignals p e r [c, f, p.flag] = [.ckfail q] := by
  obtain ⟨hb, hk, rfl⟩ := hr
  rw [rxSignals_body_store hb hce hcf hroom]
  by_cases hfe : f = p.esc
  · rw [hfe, rxSignals_body_esc (.inl rfl)]
    exact rxSignals_escape_flag hp rfl hk
  · obtain ⟨hroom2, hx⟩ := hstored hfe
    rw [rxSignals_body_store (.inl rfl) hfe hf (by rw [List.length_append]; exact hroom2)]
    refine rxSignals_body_close hp (.inl rfl) hk (.inr (xorAll_concat_ne_zero ?_))
    rw [xorAll_concat]
    exact hx.symm

end

/-- Settles O15: the flipped byte is never the checksum, and a FLAG made of it comes from a non-zero one. -/
theorem flippedChecksumSignalsFailure : Obligations.FlippedChecksumSignalsFailure := by
  unfold Obligations.FlippedChecksumSignalsFailure
  intro p e r q pl i hp he hr hbits hroom _ _ hi
  obtain ⟨r', hread, hsig⟩ := rxSignals_after_payload hp he q pl hr (by omega)
  rw [List.append_assoc (header _ _ _ ++ _)]
  refine (hsig _).trans (rxSignals_wrongChecksum e hread hp hroom (flip_ne hi _) fun hf h0 => ?_)
  rw [h0, BitVec.zero_xor] at hf
  exact hbits i hi hf.symm

/-- The two followers are two bits apart, so one flipped bit makes neither of them from one of them. -/
theorem flipped_follower {f : Byte} (hf : f = escFollowFlag ∨ f = escFollowEsc) {i : Nat} (hi : i < 8) :
    f ^^^ (1#8 <<< i) ≠ escFollowFlag ∧ f ^^^ (1#8 <<< i) ≠ escFollowEsc := by
  have hall : ∀ j, j < 8 → ∀ g ∈ [escFollowFlag, escFollowEsc],
      g ^^^ (1#8 <<< j) ≠ escFollowFlag ∧ g ^^^ (1#8 <<< j) ≠ escFollowEsc := by decide
  exact hall i hi f (by simpa using hf)

/-- Settles O60: the flipped follower, and the flipped ESC as FLAG or as a literal. -/
theorem flippedStuffedChecksumSignals : Obligations.FlippedStuffedChecksumSignals := by
  unfold Obligations.FlippedStuffedChecksumSignals
  intro p e f r q pl i hp he hr hroom hi hchk
  obtain ⟨r', hread, hsig⟩ := rxSignals_after_payload hp he q pl hr (by omega)
  have hfollow : f = escFollowFlag ∨ f = escFollowEsc := hchk.imp And.right And.right
  have hff : f ≠ p.flag := by
    obtain ⟨h1, h2⟩ := legal_flag_no_follower hp
    rcases hfollow with rfl | rfl
    · exact h1.symm
    · exact h2.symm
  have hce := flip_ne hi p.esc
  simp only [List.append_assoc (header _ _ _ ++ _)]
  refine ⟨?follower, fun hzero hlit => ?escape, fun hcf hfe hfull => ?full⟩
  case follower =>
    obtain ⟨h1, h2⟩ := flipped_follower hfollow hi
    exact (hsig _).trans (rxSignals_wrongFollower e hread h1 h2)
  case escape =>
    refine (hsig _).trans ?_
    by_cases hcf : p.esc ^^^ (1#8 <<< i) = p.flag
    · simp only [hcf]
      exact rxSignals_escapeBecomesFlag e hread hp hff (.inr (hzero hcf))
    · exact rxSignals_escapeBecomesLiteral e hread hp hce hcf hff hroom (hlit hcf)
  case full =>
    exact (hsig _).trans (rxSignals_escapeBecomesLiteral_full e hread hce hcf hff hfe hfull)

end Sys2Proof
end


section
/-! SUPPORT. The invariant of reachable states (spec/10_state.md R35, R39, R43, R47): one lemma per way an operation
begins, goes on and ends, and from them every step. -/

namespace Sys2Proof.Machine

/-! ### The invariant at power-on, and what it gives -/

/-- Settles O43: the power-on state is idle, DISCONNECTED, unarmed, with empty buffers and no configuration. -/
theorem powerOnMeetsInvariant : Obligations.PowerOnMeetsInvariant := by
  unfold Obligations.PowerOnMeetsInvariant
  exact {
    legal := by decide
    link := .inl rfl
    role := trivial
    written := fun hl => absurd rfl hl
    config := fun hw => absurd hw (by decide)
    armed := rfl
    attempts := Nat.le_refl 0
    counted := fun ht => absurd ht (by decide)
    closing := fun hd => absurd hd (by decide)
    parser := parserOk_of_empty rfl
    frame := trivial
    capacity := Nat.zero_le _ }

theorem timed_iff (o : Op) : o.timed = true ↔
    o = .openTxWaitUa ∨ o = .sendWaitAck ∨ o = .closeTxWaitDisc ∨ o = .closeRxWaitUa := by
  cases o <;> simp [Op.timed]

/-- No operation is in progress on a DISCONNECTED link (R35). -/
theorem idle_of_linkOk_disconnected {o : Op} (h : o.linkOk .disconnected) : o = .idle := by
  cases o with
  | idle => rfl
  | _ => cases h

theorem ne_disconnected_of_linkOk {o : Op} {l : Link} (h : o.linkOk l) (ho : o ≠ .idle) : l ≠ .disconnected :=
  fun hl => ho (idle_of_linkOk_disconnected (hl ▸ h))

section
variable {s : State} (h : s.Inv)
include h

theorem State.Inv.timerArmed_of_idle (ho : s.op = .idle) : s.timerArmed = false := by
  rw [h.armed, ho]
  rfl

theorem State.Inv.timed_of_armed (ha : s.timerArmed = true) : s.op.timed = true := h.armed ▸ ha

theorem State.Inv.maxAttempts_pos (hl : s.link ≠ .disconnected) : 1 ≤ s.cfgMaxAttempts :=
  (h.config (h.written hl)).1

end

/-- Settles O45: each fact is a clause of the invariant or follows from the table of waits. -/
theorem invariantGivesReachableFacts : Obligations.InvariantGivesReachableFacts := by
  unfold Obligations.InvariantGivesReachableFacts
  intro s h
  exact ⟨h.link, h.timerArmed_of_idle, fun hl => idle_of_linkOk_disconnected (hl ▸ h.link),
    fun ha => ⟨h.counted (h.timed_of_armed ha), h.attempts⟩, h.closing,
    fun ha => (timed_iff s.op).1 (h.timed_of_armed ha)⟩

/-! ### The environment, and the end of an operation -/

/-- What the end of an operation keeps: the parameters, the configuration, the frame kept, its count, the parser. -/
def State.keptRegs (s : State) : Params × (Role × Nat × Nat × Bit) × Nat × Bytes × ParserRegs :=
  (s.params, s.configRegs, s.txCount, s.txbuf, s.rx)

section
variable {s : State} (h : s.Inv)
include h

/-- The environment, the log and a parser that keeps its own invariant are free. -/
theorem State.Inv.environment {r : ParserRegs} (hr : ParserOk s.params r) (q : Bytes) (ins : List Input) (ok : Bit)
    (o : List Record) : ({ s with rx := r, chanRx := q, inputs := ins, chanOk := ok, out := o } : State).Inv :=
  { h with parser := hr }

/-- An operation ends idle and unarmed, and a link that is CONNECTED then was up before. -/
theorem State.Inv.ended {t : State} (hk : t.keptRegs = s.keptRegs) (ho : t.op = .idle) (ha : t.timerArmed = false)
    (hl : t.link = .disconnected ∨ t.link = .connected ∧ s.link ≠ .disconnected)
    (hd : t.discPending = true → s.cfgRole = .receiver) : t.Inv := by
  simp only [State.keptRegs, State.configRegs, Prod.mk.injEq] at hk
  obtain ⟨hp, ⟨hrole, hmax, htime, hw⟩, hcount, hbuf, hrx⟩ := hk
  exact {
    legal := by rw [hp]; exact h.legal
    link := by rw [ho]; exact hl.imp_right And.left
    role := by rw [ho]; trivial
    written := fun hne => by rw [hw]; exact h.written (hl.resolve_left hne).2
    config := by rw [hw, hmax, hp, htime]; exact h.config
    armed := by rw [ha, ho]; rfl
    attempts := by rw [hcount, hmax]; exact h.attempts
    counted := fun ht => absurd (ho ▸ ht) (by decide)
    closing := fun hdp => by rw [hrole]; exact hd hdp
    parser := by rw [hp, hrx]; exact h.parser
    frame := by rw [State.timedFrameOk, ho]; trivial
    capacity := by rw [hbuf, hp]; exact h.capacity }

/-- An idle core's link is as an ended operation leaves it. -/
theorem State.Inv.link_of_idle (ho : s.op = .idle) :
    s.link = .disconnected ∨ s.link = .connected ∧ s.link ≠ .disconnected := by
  have hl := h.link
  rw [ho] at hl
  exact hl.imp_right fun hc => ⟨hc, by rw [hc]; decide⟩

end

/-- `Cleanup` gives up the link of an `open` or a `close`, and keeps a CONNECTED one (R404). -/
theorem cleanupLink_cases {o : Op} {l : Link} (h : o.linkOk l) :
    cleanupLink o l = .disconnected ∨ cleanupLink o l = .connected ∧ l ≠ .disconnected := by
  cases o with
  | idle => exact h.imp_right fun hc => ⟨hc, by rw [show l = .connected from hc]; decide⟩
  | sendWaitAck | recvWait => exact .inr ⟨h, ne_disconnected_of_linkOk h (by decide)⟩
  | openTxWaitUa | openRxWaitSet | closeTxWaitDisc | closeRxWaitDisc | closeRxWaitUa => exact .inl rfl

theorem State.Inv.raiseErr {s : State} (h : s.Inv) (e : Code) : (s.raiseErr e).Inv := by
  rw [raiseErr_eq]
  exact h.ended rfl rfl rfl (cleanupLink_cases h.link) h.closing

/-! ### The beginning of an operation -/

theorem supFrame_capacity (p : Params) (a c : Byte) : (supFrame p a c).length ≤ 2 * p.maxPayload + 7 := by
  rw [length_supFrame]
  omega

theorem infoFrame_capacity {p : Params} (a : Byte) (q : Bit) {pl : Bytes} (h : pl.length ≤ p.maxPayload) :
    (infoFrame p a q pl).length ≤ 2 * p.maxPayload + 7 := by
  have := length_infoFrame_le a q h
  omega

/-- `ParserReset()` keeps the parser's invariant. -/
theorem parserOk_reset (p : Params) (r : ParserRegs) : ParserOk p r.reset := parserOk_of_empty rfl

/-- The first transmission of a `send`, as one record update (R321). -/
theorem sendWait_eq (s : State) (n : Nat) (bs : Bytes) :
    ((s.parserReset.setTxLen n).transmitFirst bs).setOp .sendWaitAck = { s with
      rx := s.rx.reset, txLen := n, txbuf := bs, txCount := 1, timerArmed := true, op := .sendWaitAck,
      out := s.out ++ [.tx bs] } := rfl

/-- The begin of a Sender's `close`, as one record update (R269, R270). -/
theorem closeBegins_sender_eq (s : State) (c : Bit) :
    (s.latchClose c).startClose .sender = { s with
      collect := c, link := .disconnecting, rx := s.rx.reset,
      txbuf := supFrame s.params s.params.aS s.params.cDisc, txCount := 1, timerArmed := true,
      op := .closeTxWaitDisc, out := s.out ++ [.tx (supFrame s.params s.params.aS s.params.cDisc)] } := rfl

/-- The begin of a Receiver's `close` that has seen no DISC, as one record update (R269, R274). -/
theorem closeBegins_receiver_eq {s : State} (hd : s.discPending = false) (c : Bit) :
    (s.latchClose c).startClose .receiver = { s with
      collect := c, link := .disconnecting, rx := s.rx.reset, op := .closeRxWaitDisc } := by
  rw [startClose_receiver_of_not_discPending (show (s.latchClose c).discPending = false from hd)]
  rfl

section
variable {s : State} (h : s.Inv)
include h

/-- The session of an `open` with operands in range (R264 to R266). -/
theorem State.Inv.opened (ho : s.op = .idle) {role : Role} {m tm : U32} (dev baud : Bytes)
    (hc : openConfigBad s.params m tm = false) :
    (((s.askChanOpen dev baud).createSession role m tm).startSession role).Inv := by
  obtain ⟨hm, hM, ht⟩ := (openConfigBad_eq_false_iff s.params m tm).1 hc
  cases role with
  | sender =>
    rw [openedSession_sender_eq]
    exact {
      legal := h.legal, link := rfl, role := rfl, written := fun _ => rfl, config := fun _ => ⟨hm, hM, ht⟩
      armed := rfl, attempts := hm, counted := fun _ => Nat.le_refl 1, closing := (nomatch ·)
      parser := parserOk_reset _ _, frame := rfl, capacity := supFrame_capacity _ _ _ }
  | receiver =>
    rw [openedSession_receiver_eq]
    exact {
      legal := h.legal, link := rfl, role := rfl, written := fun _ => rfl, config := fun _ => ⟨hm, hM, ht⟩
      armed := h.timerArmed_of_idle ho, attempts := Nat.zero_le _, counted := (nomatch ·)
      closing := (nomatch ·), parser := parserOk_reset _ _, frame := trivial, capacity := Nat.zero_le _ }

/-- The wait of a `send` (R321). -/
theorem State.Inv.sending (hl : s.link = .connected) (hr : s.cfgRole = .sender) {pl : Bytes}
    (hp : sendPayloadBad s.params pl = false) :
    (((s.parserReset.setTxLen pl.length).transmitFirst
      (infoFrame s.params s.params.aS s.ns pl)).setOp .sendWaitAck).Inv := by
  obtain ⟨h1, hmax⟩ := (sendPayloadBad_eq_false_iff s.params pl).1 hp
  rw [sendWait_eq]
  exact { h with
    link := hl, role := hr, armed := rfl, attempts := h.maxAttempts_pos (by rw [hl]; decide)
    counted := fun _ => Nat.le_refl 1, parser := parserOk_reset _ _
    frame := ⟨pl, h1, hmax, rfl, rfl⟩, capacity := infoFrame_capacity _ _ hmax }

/-- The wait of a `receive` (R330). -/
theorem State.Inv.receiving (ho : s.op = .idle) (hl : s.link = .connected) (hr : s.cfgRole = .receiver) :
    (s.parserReset.setOp .recvWait).Inv :=
  { h with
    link := hl, role := hr, armed := h.timerArmed_of_idle ho, counted := (nomatch ·)
    parser := parserOk_reset _ _, frame := trivial }

end

/-- What the Receiver's DISC needs of the state it is sent from: a `close` in progress at a Receiver (R275). -/
theorem replyDisc_inv {s : State} (hlegal : s.params.legal = true) (hl : s.link = .disconnecting)
    (hr : s.cfgRole = .receiver) (hw : s.cfgWritten = true)
    (hc : 1 ≤ s.cfgMaxAttempts ∧ s.cfgMaxAttempts ≤ s.params.maxAttemptsLimit ∧ 1 ≤ s.cfgTimeout)
    (hp : ParserOk s.params s.rx) : s.replyDisc.Inv := by
  rw [replyDisc_eq]
  exact {
    legal := hlegal, link := hl, role := hr, written := fun _ => hw, config := fun _ => hc
    armed := rfl, attempts := hc.1, counted := fun _ => Nat.le_refl 1, closing := fun _ => hr
    parser := hp, frame := rfl, capacity := supFrame_capacity _ _ _ }

/-- The first wait of a `close`, by role (R270, R274, R275). -/
theorem State.Inv.closing_begins {s : State} (h : s.Inv) (ho : s.op = .idle) (hl : s.link = .connected) (c : Bit) :
    ((s.latchClose c).startClose s.cfgRole).Inv := by
  have hne : s.link ≠ .disconnected := by rw [hl]; decide
  have hw := h.written hne
  cases hr : s.cfgRole with
  | sender =>
    rw [closeBegins_sender_eq]
    exact { h with
      link := rfl, role := hr, written := fun _ => hw, armed := rfl, attempts := h.maxAttempts_pos hne
      counted := fun _ => Nat.le_refl 1, parser := parserOk_reset _ _, frame := rfl
      capacity := supFrame_capacity _ _ _ }
  | receiver =>
    cases hd : s.discPending with
    | true =>
      rw [startClose_receiver_of_discPending (s := s.latchClose c) hd]
      exact replyDisc_inv h.legal rfl hr hw (h.config hw) (parserOk_reset _ _)
    | false =>
      rw [closeBegins_receiver_eq hd]
      exact { h with
        link := rfl, role := hr, written := fun _ => hw, armed := h.timerArmed_of_idle ho
        counted := (nomatch ·), parser := parserOk_reset _ _, frame := trivial }

/-! ### Every move -/

theorem CommandMove.inv {u t : State} {i : Instr} (h : u.Inv) (hm : CommandMove u i t) : t.Inv := by
  cases hm with
  | refusedByCheck _ _ ho => exact h.ended rfl rfl (h.timerArmed_of_idle ho) (h.link_of_idle ho) h.closing
  | channelFailed _ _ _ _ _ ho => exact h.ended rfl rfl (h.timerArmed_of_idle ho) (h.link_of_idle ho) h.closing
  | opened _ _ _ dev baud ho _ hc => exact h.opened ho dev baud hc
  | sending _ _ hl _ hr hp => exact h.sending hl hr hp
  | receiving ho hl _ hr _ => exact h.receiving ho hl hr
  | closing c ho hl _ => exact h.closing_begins ho hl c

theorem RetryMove.inv {u t : State} (h : u.Inv) (ht : u.op.timed = true) (hm : RetryMove u t) : t.Inv := by
  cases hm with
  | again _ hlt => exact { h with armed := ht.symm, attempts := hlt, counted := fun _ => Nat.succ_pos _ }
  | exhausted => exact h.raiseErr _

/-- Both branches set the timer anew, so an expiry's notification leaves no trace (R381). -/
theorem RetryMove.of_disarm {u t : State} (hm : RetryMove u.disarm t) : RetryMove u t := by
  cases hm with
  | again hw hlt => exact .again hw hlt
  | exhausted hw hle => exact .exhausted hw hle

/-- The end of an acknowledged `send`, as one record update (R323). -/
theorem acknowledgedSend_eq (s : State) :
    (s.disarm.toggleNs.countBytes s.txLen).respond .ok (.bytesSent s.txLen) = { s with
      timerArmed := false, ns := !s.ns, statBytes := s.statBytes + BitVec.ofNat 32 s.txLen, op := .idle,
      out := s.out ++ [.resp .ok (.bytesSent s.txLen)] } := rfl

theorem SignalMove.inv {u t : State} {sg : Signal} (h : u.Inv) (hm : SignalMove u sg t) : t.Inv := by
  have hlink := h.link
  have hrole := h.role
  have harmed := h.armed
  cases hm with
  | ignored => exact h
  | accepted ho =>
    rw [ho] at hlink harmed
    exact h.ended rfl rfl harmed (.inr ⟨rfl, ne_disconnected_of_linkOk hlink (by decide)⟩) h.closing
  | established ho =>
    rw [ho] at hlink
    exact h.ended rfl rfl rfl (.inr ⟨rfl, ne_disconnected_of_linkOk hlink (by decide)⟩) h.closing
  | closedByUa =>
    rw [finishClose_eq]
    exact h.ended rfl rfl rfl (.inl rfl) h.closing
  | closedByDisc =>
    rw [disarm_emit_finishClose_eq]
    exact h.ended rfl rfl rfl (.inl rfl) h.closing
  | peerCloses ho =>
    rw [ho] at hlink hrole harmed
    exact h.ended rfl rfl harmed (.inr ⟨hlink, ne_disconnected_of_linkOk hlink (by decide)⟩) fun _ => hrole
  | discAnswered ho =>
    rw [ho] at hlink hrole
    have hw := h.written (ne_disconnected_of_linkOk hlink (by decide))
    exact replyDisc_inv h.legal hlink hrole hw (h.config hw) h.parser
  | discRepeated _ ho hr => exact hr.inv h (by rw [ho]; rfl)
  | rejected _ _ ho _ hr => exact hr.inv h (by rw [ho]; rfl)
  | acknowledged ho =>
    rw [ho] at hlink
    rw [acknowledgedSend_eq]
    exact h.ended rfl rfl rfl (.inr ⟨hlink, ne_disconnected_of_linkOk hlink (by decide)⟩) h.closing
  | delivered _ ho =>
    rw [ho] at hlink harmed
    rw [deliver_eq]
    exact h.ended rfl rfl harmed (.inr ⟨hlink, ne_disconnected_of_linkOk hlink (by decide)⟩) h.closing
  | duplicate => exact h.environment h.parser _ _ _ _
  | corrupted => exact h.environment h.parser _ _ _ _
  | overflowed => exact h.raiseErr _

theorem StepMove.inv {s t : State} (h : s.Inv) (hm : StepMove s t) : t.Inv := by
  cases hm with
  | quiet => exact h
  | command _ ok rest _ _ hc => exact hc.inv (h.environment h.parser s.chanRx rest ok s.out)
  | arrival => exact h.environment h.parser _ _ _ _
  | silentByte b _ _ _ _ _ _ _ hr =>
    have hok := rxStep_keepsOk (peerAddr s.params s.cfgRole) b h.parser
    rw [hr] at hok
    exact h.environment hok.1 _ _ _ _
  | signalByte b q rest r _ _ _ _ _ _ hr hs =>
    have hok := rxStep_keepsOk (peerAddr s.params s.cfgRole) b h.parser
    rw [hr] at hok
    exact hs.inv (h.environment hok.1 q rest s.chanOk s.out)
  | expiry rest _ _ ha hr =>
    exact hr.of_disarm.inv (h.environment h.parser s.chanRx rest s.chanOk s.out) (h.timed_of_armed ha)

/-- Settles O44: every step is one of the moves, and each keeps the invariant. -/
theorem stepKeepsInvariant : Obligations.StepKeepsInvariant := by
  unfold Obligations.StepKeepsInvariant
  exact fun _ _ h hstep => (step_move hstep).2.inv h

end Sys2Proof.Machine
end


section
/-! SUPPORT. What a step may change (spec/10_state.md R32 to R44): the records it puts out, the queue it reads, the link
it moves and the bits it toggles, each read off the moves of the core. -/

namespace Sys2Proof.Machine

/-! ### Parameters, queue and inputs (R45; spec/00_scope.md R10) -/

/-- The parameters, the channel's queue and the inputs to come, which no operation of the core writes. -/
def State.fixedRegs (s : State) : Params × Bytes × List Input := (s.params, s.chanRx, s.inputs)

theorem fixedRegs_inj {u t : State} (h : t.fixedRegs = u.fixedRegs) :
    t.params = u.params ∧ t.chanRx = u.chanRx ∧ t.inputs = u.inputs := by
  simpa [State.fixedRegs] using h

/-- `ns`, `nr` and `disc_pending` (R36, R37, R38). -/
def State.sessionBits (s : State) : Bit × Bit × Bit := (s.ns, s.nr, s.discPending)

section
variable (s : State) (role : Role) (e : Code)

@[simp] theorem startSession_keeps :
    (s.startSession role).fixedRegs = s.fixedRegs ∧ (s.startSession role).sessionBits = s.sessionBits := by
  cases role <;> exact ⟨rfl, rfl⟩

@[simp] theorem startClose_keeps :
    (s.startClose role).fixedRegs = s.fixedRegs ∧ (s.startClose role).sessionBits = s.sessionBits ∧
    (s.startClose role).link = s.link := by
  cases role with
  | sender => exact ⟨rfl, rfl, rfl⟩
  | receiver =>
    rw [startClose_receiver_eq]
    split <;> exact ⟨rfl, rfl, rfl⟩

@[simp] theorem raiseErr_keeps :
    (s.raiseErr e).fixedRegs = s.fixedRegs ∧ (s.raiseErr e).sessionBits = s.sessionBits := by
  rw [raiseErr_eq]
  exact ⟨rfl, rfl⟩

end

theorem CommandMove.fixedRegs {u t : State} {i : Instr} (hm : CommandMove u i t) : t.fixedRegs = u.fixedRegs := by
  cases hm with
  | opened role => exact (startSession_keeps _ role).1
  | closing => exact (startClose_keeps _ _).1
  | _ => rfl

theorem RetryMove.fixedRegs {u t : State} (hm : RetryMove u t) : t.fixedRegs = u.fixedRegs := by
  cases hm with
  | again => rfl
  | exhausted => exact (raiseErr_keeps u _).1

theorem SignalMove.fixedRegs {u t : State} {sg : Signal} (hm : SignalMove u sg t) : t.fixedRegs = u.fixedRegs := by
  cases hm with
  | closedByDisc =>
    rw [disarm_emit_finishClose_eq]
    rfl
  | discRepeated _ _ hr => exact hr.fixedRegs
  | rejected _ _ _ _ hr => exact hr.fixedRegs
  | overflowed => exact (raiseErr_keeps u _).1
  | _ => rfl

/-- A step reads the oldest byte of the queue in a wait, or the channel adds to the queue, or it is kept. -/
theorem StepMove.params_queue {s t : State} (hm : StepMove s t) : t.params = s.params ∧
    (t.chanRx = s.chanRx ∨
     (s.op ≠ .idle ∧ ∃ b, s.chanRx = b :: t.chanRx ∧ ∃ rest, s.inputs = .rxByte :: rest) ∨
     (∃ bs rest, s.inputs = .arrive bs :: rest ∧ t.chanRx = s.chanRx ++ bs)) := by
  cases hm with
  | quiet => exact ⟨rfl, .inl rfl⟩
  | command _ _ _ _ _ hc =>
    obtain ⟨hp, hq, -⟩ := fixedRegs_inj hc.fixedRegs
    exact ⟨hp, .inl hq⟩
  | arrival bs rest hi => exact ⟨rfl, .inr (.inr ⟨bs, rest, hi, rfl⟩)⟩
  | silentByte b _ rest _ hi ho _ hq => exact ⟨rfl, .inr (.inl ⟨ho, b, hq, rest, hi⟩)⟩
  | signalByte b _ rest _ _ _ hi ho _ hq _ hs =>
    obtain ⟨hp, hq', -⟩ := fixedRegs_inj hs.fixedRegs
    exact ⟨hp, .inr (.inl ⟨ho, b, hq'.symm ▸ hq, rest, hi⟩)⟩
  | expiry _ _ _ _ hr =>
    obtain ⟨hp, hq, -⟩ := fixedRegs_inj hr.fixedRegs
    exact ⟨hp, .inl hq⟩

/-- Settles O54: only the two moves of a byte read the queue, and only an arrival adds to it. -/
theorem queueIsReadInOrder : Obligations.QueueIsReadInOrder := by
  unfold Obligations.QueueIsReadInOrder
  exact fun _ _ h => (step_move h).2.params_queue.2

/-! ### The output log (R44; spec/60_exceptions.md R400) -/

/-- The records from `u` to `t` hold one result if `t` is idle, else none. -/
def AnswersWhenIdle (u t : State) : Prop :=
  ∃ rs : List Record, t.out = u.out ++ rs ∧ respCount rs = if t.op = .idle then 1 else 0

theorem answers_of_idle {u t : State} {rs : List Record} {c : Code} {v : Value}
    (h : t.out = u.out ++ (rs ++ [Record.resp c v])) (hrs : respCount rs = 0) (ho : t.op = .idle) :
    AnswersWhenIdle u t := by
  refine ⟨_, h, ?_⟩
  rw [respCount, List.countP_append, ← respCount, hrs, if_pos ho]
  rfl

theorem answers_of_wait {u t : State} {rs : List Record} (h : t.out = u.out ++ rs) (hrs : respCount rs = 0)
    (ho : t.op ≠ .idle) : AnswersWhenIdle u t :=
  ⟨rs, h, by rw [hrs, if_neg ho]⟩

theorem respCount_cleanupRecords (o : Op) : respCount (cleanupRecords o) = 0 := by cases o <;> rfl

theorem answers_raiseErr (u : State) (e : Code) : AnswersWhenIdle u (u.raiseErr e) := by
  rw [raiseErr_eq]
  exact answers_of_idle rfl (respCount_cleanupRecords u.op) rfl

theorem CommandMove.answers {u t : State} {i : Instr} (hm : CommandMove u i t) : AnswersWhenIdle u t := by
  cases hm with
  | refusedByCheck => exact answers_of_idle (rs := []) rfl rfl rfl
  | channelFailed _ _ _ dev baud ho =>
    rw [askChanOpen_respond_of_idle ho]
    exact answers_of_idle (rs := [.chanOpen dev baud]) rfl rfl ho
  | opened role _ _ dev baud =>
    cases role with
    | sender =>
      rw [openedSession_sender_eq]
      exact answers_of_wait rfl rfl (by decide : Op.openTxWaitUa ≠ .idle)
    | receiver => exact answers_of_wait (rs := [.chanOpen dev baud]) rfl rfl (by decide : Op.openRxWaitSet ≠ .idle)
  | sending pl => exact answers_of_wait rfl rfl (by decide : Op.sendWaitAck ≠ .idle)
  | receiving => exact answers_of_wait (List.append_nil _).symm rfl (by decide : Op.recvWait ≠ .idle)
  | closing c =>
    cases u.cfgRole with
    | sender => exact answers_of_wait rfl rfl (by decide : Op.closeTxWaitDisc ≠ .idle)
    | receiver =>
      cases hd : u.discPending with
      | true =>
        rw [startClose_receiver_of_discPending (s := u.latchClose c) hd]
        exact answers_of_wait rfl rfl (by decide : Op.closeRxWaitUa ≠ .idle)
      | false =>
        rw [closeBegins_receiver_eq hd]
        exact answers_of_wait (List.append_nil _).symm rfl (by decide : Op.closeRxWaitDisc ≠ .idle)

theorem RetryMove.answers {u t : State} (hm : RetryMove u t) (ho : u.op ≠ .idle) : AnswersWhenIdle u t := by
  cases hm with
  | again => exact answers_of_wait rfl rfl ho
  | exhausted => exact answers_raiseErr u _

theorem SignalMove.answers {u t : State} {sg : Signal} (hm : SignalMove u sg t) : AnswersWhenIdle u t := by
  cases hm with
  | ignored _ ho => exact answers_of_wait (List.append_nil _).symm rfl ho
  | accepted =>
    exact answers_of_idle (rs := [.tx (supFrame u.params u.params.aR u.params.cUa)]) (List.append_assoc ..) rfl rfl
  | established => exact answers_of_idle (rs := []) rfl rfl rfl
  | closedByUa =>
    rw [finishClose_eq]
    exact answers_of_idle (rs := [.chanRestore, .chanClose]) rfl rfl rfl
  | closedByDisc =>
    rw [disarm_emit_finishClose_eq]
    exact answers_of_idle
      (rs := [.tx (supFrame u.params u.params.aS u.params.cUa), .chanRestore, .chanClose]) rfl rfl rfl
  | peerCloses => exact answers_of_idle (rs := []) rfl rfl rfl
  | discAnswered => exact answers_of_wait rfl rfl (by decide : Op.closeRxWaitUa ≠ .idle)
  | discRepeated _ ho hr => exact hr.answers (by rw [ho]; decide)
  | rejected _ _ ho _ hr => exact hr.answers (by rw [ho]; decide)
  | acknowledged => exact answers_of_idle (rs := []) rfl rfl rfl
  | delivered =>
    rw [deliver_eq]
    exact answers_of_idle
      (rs := [.tx (supFrame u.params u.params.aR (ctrl u.params (rrKind (!u.nr))))]) rfl rfl rfl
  | duplicate _ _ ho => exact answers_of_wait rfl rfl (ho.trans_ne (by decide))
  | corrupted _ ho => exact answers_of_wait rfl rfl (ho.trans_ne (by decide))
  | overflowed => exact answers_raiseErr u _

theorem RetryMove.grows {u t : State} (hm : RetryMove u t) : ∃ rs, t.out = u.out ++ rs := by
  cases hm with
  | again => exact ⟨_, rfl⟩
  | exhausted =>
    obtain ⟨rs, h, -⟩ := answers_raiseErr u .errAttemptsExhausted
    exact ⟨rs, h⟩

theorem StepMove.grows {s t : State} (hm : StepMove s t) : ∃ rs, t.out = s.out ++ rs := by
  cases hm with
  | quiet | arrival | silentByte => exact ⟨[], (List.append_nil _).symm⟩
  | command _ _ _ _ _ hc => exact hc.answers.imp fun _ h => h.1
  | signalByte _ _ _ _ _ _ _ _ _ _ _ hs => exact hs.answers.imp fun _ h => h.1
  | expiry _ _ _ _ hr => exact hr.grows

/-- Settles O46: no operation writes the parameters, and each appends to the log. -/
theorem outputOnlyGrows : Obligations.OutputOnlyGrows := by
  unfold Obligations.OutputOnlyGrows
  intro s t h
  obtain ⟨-, hm⟩ := step_move h
  exact ⟨hm.params_queue.1, hm.grows⟩

/-- The records of a step hold one result if it ends an operation or answers a command at once, else none. -/
def StepAnswers (s t : State) : Prop :=
  ∃ rs : List Record, t.out = s.out ++ rs ∧
    respCount rs = if t.op = .idle ∧ (s.op ≠ .idle ∨ s.nextCommand.isSome = true) then 1 else 0

theorem AnswersWhenIdle.step {s t : State} (h : AnswersWhenIdle s t)
    (ho : s.op ≠ .idle ∨ s.nextCommand.isSome = true) : StepAnswers s t := by
  obtain ⟨rs, hout, hcount⟩ := h
  exact ⟨rs, hout, by simp only [hcount, ho, and_true]⟩

/-- A step that neither logs nor moves `op`, and takes no command. -/
theorem stepAnswers_of_kept {s t : State} (hout : t.out = s.out) (ho : t.op = s.op) (hn : s.nextCommand = none) :
    StepAnswers s t := by
  refine ⟨[], by rw [hout, List.append_nil], ?_⟩
  rw [if_neg (by simp [ho, hn])]
  rfl

theorem StepMove.answers {s t : State} (h : s.Inv) (hm : StepMove s t) : StepAnswers s t := by
  cases hm with
  | quiet hi => exact stepAnswers_of_kept rfl rfl (by simp [State.nextCommand, hi])
  | arrival _ _ hi => exact stepAnswers_of_kept rfl rfl (by simp [State.nextCommand, hi])
  | silentByte _ _ _ _ hi => exact stepAnswers_of_kept rfl rfl (by simp [State.nextCommand, hi])
  | command _ _ _ _ hi hc => exact AnswersWhenIdle.step hc.answers (.inr (by simp [State.nextCommand, hi]))
  | signalByte _ _ _ _ _ _ _ ho _ _ _ hs => exact AnswersWhenIdle.step hs.answers (.inl ho)
  | expiry _ _ _ ha hr =>
    have ho : s.op ≠ .idle := fun ho => by simp [h.timerArmed_of_idle ho] at ha
    exact AnswersWhenIdle.step (hr.answers ho) (.inl ho)

/-- Settles O52: a move's records hold one result exactly when it leaves the core idle, and a move that is neither a
command's nor a wait's leaves `op`. -/
theorem oneResultPerOperation : Obligations.OneResultPerOperation := by
  unfold Obligations.OneResultPerOperation
  intro s t h hstep
  obtain ⟨rs, hout, hcount⟩ := (step_move hstep).2.answers h
  refine ⟨rs, hout, ?_⟩
  rw [hcount]
  split_ifs with hend
  · exact ⟨Nat.le_refl 1, iff_of_true rfl hend⟩
  · exact ⟨Nat.zero_le 1, iff_of_false (by decide) hend⟩

/-! ### The configuration registers (R32) -/

/-- Settles O47: the four registers move together, and only with an `open` whose operands are in range. -/
theorem configWrittenByOpenOnly : Obligations.ConfigWrittenByOpenOnly := by
  unfold Obligations.ConfigWrittenByOpenOnly
  intro s t h
  rcases step_configRegs h with hk | ⟨role, m, tm, dev, baud, hn, hl, hc, hlink, hregs⟩
  · exact .inl (configRegs_inj.1 hk)
  · simp only [State.configRegs, Prod.mk.injEq] at hregs
    obtain ⟨hr, hmax, htime, -⟩ := hregs
    exact .inr ⟨role, m, tm, dev, baud, hn, hl, hlink, hr, hmax, htime,
      (openConfigBad_eq_false_iff s.params m tm).1 hc⟩

/-! ### The link (spec/42_connection.md R260) -/

theorem linkMove_cleanupLink {o : Op} {l : Link} (h : o.linkOk l) : linkMove l (cleanupLink o l) := by
  cases o with
  | idle | sendWaitAck | recvWait => exact .inl rfl
  | openTxWaitUa | openRxWaitSet => exact .inr (.inr (.inr (.inr (.inr ⟨h, rfl⟩))))
  | closeTxWaitDisc | closeRxWaitDisc | closeRxWaitUa => exact .inr (.inr (.inr (.inr (.inl ⟨h, rfl⟩))))

theorem linkMove_raiseErr {u : State} (h : u.op.linkOk u.link) (e : Code) : linkMove u.link (u.raiseErr e).link := by
  rw [raiseErr_eq]
  exact linkMove_cleanupLink h

theorem CommandMove.linkMove {u t : State} {i : Instr} (hm : CommandMove u i t) : linkMove u.link t.link := by
  cases hm with
  | opened _ _ _ _ _ _ hl => exact .inr (.inl ⟨hl, link_startSession _ _⟩)
  | closing _ _ hl => exact .inr (.inr (.inr (.inl ⟨hl, (startClose_keeps _ _).2.2⟩)))
  | _ => exact .inl rfl

theorem RetryMove.linkMove {u t : State} (hm : RetryMove u t) (h : u.op.linkOk u.link) : linkMove u.link t.link := by
  cases hm with
  | again => exact .inl rfl
  | exhausted => exact linkMove_raiseErr h _

theorem SignalMove.linkMove {u t : State} {sg : Signal} (hm : SignalMove u sg t) (h : u.op.linkOk u.link) :
    linkMove u.link t.link := by
  cases hm with
  | accepted ho =>
    rw [ho] at h
    exact .inr (.inr (.inl ⟨h, rfl⟩))
  | established ho =>
    rw [ho] at h
    exact .inr (.inr (.inl ⟨h, rfl⟩))
  | closedByUa ho =>
    rw [ho] at h
    exact .inr (.inr (.inr (.inr (.inl ⟨h, rfl⟩))))
  | closedByDisc ho =>
    rw [ho] at h
    exact .inr (.inr (.inr (.inr (.inl ⟨h, rfl⟩))))
  | discRepeated _ _ hr => exact hr.linkMove h
  | rejected _ _ _ _ hr => exact hr.linkMove h
  | overflowed => exact linkMove_raiseErr h _
  | _ => exact .inl rfl

/-- Settles O48: an `open` and a `close` leave an end of the cycle by their own checks; the wait they begin says, by the
invariant, which link its end leaves. -/
theorem linkMovesAlongCycle : Obligations.LinkMovesAlongCycle := by
  unfold Obligations.LinkMovesAlongCycle
  intro s t h hstep
  obtain ⟨-, hm⟩ := step_move hstep
  cases hm with
  | quiet | arrival | silentByte => exact .inl rfl
  | command _ _ _ _ _ hc => exact hc.linkMove
  | signalByte _ _ _ _ _ _ _ _ _ _ _ hs => exact hs.linkMove h.link
  | expiry _ _ _ _ hr => exact hr.linkMove h.link

/-! ### The session's bits (R36, R37, R38) -/

/-- The one move of each session bit, with the command or the signal that makes it: all cleared by `open`, `ns` toggled
by an acknowledgement, `nr` by a delivery, `disc_pending` set by a DISC in `receive`. -/
def BitsMove (cmd : Option Instr) (sig : Option Signal) (u t : State) : Prop :=
  t.sessionBits = u.sessionBits ∨
  ((∃ i, cmd = some i ∧ isOpenCommand i = true) ∧ t.link = .connecting ∧ t.sessionBits = (false, false, false)) ∨
  (u.op = .sendWaitAck ∧ sig = some (.sup (if u.ns then .rr0 else .rr1)) ∧ t.op = .idle ∧
    t.sessionBits = (!u.ns, u.nr, u.discPending)) ∨
  (u.op = .recvWait ∧ t.sessionBits = (u.ns, !u.nr, u.discPending) ∧ ∃ pl rr : Bytes, sig = some (.info u.nr pl) ∧
    t.out = u.out ++ [Record.tx rr, .resp .ok (.payload pl)]) ∨
  (u.op = .recvWait ∧ sig = some (.sup .disc) ∧ t.sessionBits = (u.ns, u.nr, true) ∧
    t.out = u.out ++ [Record.resp .peerClosing .unit])

theorem CommandMove.bits {u t : State} {i : Instr} (hm : CommandMove u i t) (sig : Option Signal) :
    BitsMove (some i) sig u t := by
  cases hm with
  | opened => exact .inr (.inl ⟨⟨_, rfl, rfl⟩, link_startSession _ _, (startSession_keeps _ _).2⟩)
  | closing => exact .inl (startClose_keeps _ _).2.1
  | _ => exact .inl rfl

theorem RetryMove.bits {u t : State} (hm : RetryMove u t) : t.sessionBits = u.sessionBits := by
  cases hm with
  | again => rfl
  | exhausted => exact (raiseErr_keeps u _).2

theorem SignalMove.bits {u t : State} {sg : Signal} (hm : SignalMove u sg t) (cmd : Option Instr) :
    BitsMove cmd (some sg) u t := by
  cases hm with
  | acknowledged ho => exact .inr (.inr (.inl ⟨ho, rfl, rfl, rfl⟩))
  | delivered pl ho =>
    rw [deliver_eq]
    exact .inr (.inr (.inr (.inl ⟨ho, rfl, pl, _, rfl, rfl⟩)))
  | peerCloses ho => exact .inr (.inr (.inr (.inr ⟨ho, rfl, rfl, rfl⟩)))
  | closedByDisc =>
    rw [disarm_emit_finishClose_eq]
    exact .inl rfl
  | discRepeated _ _ hr => exact .inl hr.bits
  | rejected _ _ _ _ hr => exact .inl hr.bits
  | overflowed => exact .inl (raiseErr_keeps u _).2
  | _ => exact .inl rfl

theorem nextSignal_of_rxStep {s : State} {rest : List Input} {b : Byte} {q : Bytes} {r : ParserRegs}
    {sig : Option Signal} (hi : s.inputs = .rxByte :: rest) (ho : s.op ≠ .idle) (hq : s.chanRx = b :: q)
    (hr : rxStep s.params (peerAddr s.params s.cfgRole) b s.rx = (r, sig)) : s.nextSignal = sig := by
  simp only [State.nextSignal, hi, hq, if_neg ho, hr]

theorem step_bits {s t : State} (h : step s = .next t) : BitsMove s.nextCommand s.nextSignal s t := by
  obtain ⟨-, hm⟩ := step_move h
  cases hm with
  | quiet | arrival | silentByte => exact .inl rfl
  | command w _ _ _ hi hc =>
    have hn : s.nextCommand = some (decodeHost w) := by simp only [State.nextCommand, hi]
    rw [hn]
    exact hc.bits s.nextSignal
  | signalByte _ _ _ _ _ _ hi ho _ hq hr hs =>
    rw [nextSignal_of_rxStep hi ho hq hr]
    exact hs.bits s.nextCommand
  | expiry _ _ _ _ hr => exact .inl hr.bits

/-- Settles O49: of the moves of the session bits, `open` and the acknowledgement are those of `ns`. -/
theorem transmitBitTogglesOnAckOnly : Obligations.TransmitBitTogglesOnAckOnly := by
  unfold Obligations.TransmitBitTogglesOnAckOnly
  intro s t h hne
  rcases step_bits h with hb | ⟨hopen, hl, hb⟩ | ⟨ho, hsig, hidle, hb⟩ | ⟨-, hb, -⟩ | ⟨-, -, hb, -⟩ <;>
    obtain ⟨hns, -⟩ := Prod.mk.inj hb
  · exact absurd hns hne
  · exact .inl ⟨hopen, hns, hl⟩
  · exact .inr ⟨ho, hsig, hns, hidle⟩
  · exact absurd hns hne
  · exact absurd hns hne

/-- Settles O50: of the moves of the session bits, `open` and the delivery are those of `nr`. -/
theorem receiveBitTogglesOnDeliveryOnly : Obligations.ReceiveBitTogglesOnDeliveryOnly := by
  unfold Obligations.ReceiveBitTogglesOnDeliveryOnly
  intro s t h hne
  rcases step_bits h with hb | ⟨hopen, hl, hb⟩ | ⟨-, -, -, hb⟩ | ⟨ho, hb, pl, rr, hsig, hout⟩ | ⟨-, -, hb, -⟩ <;>
    obtain ⟨-, hb⟩ := Prod.mk.inj hb <;> obtain ⟨hnr, -⟩ := Prod.mk.inj hb
  · exact absurd hnr hne
  · exact .inl ⟨hopen, hnr, hl⟩
  · exact absurd hnr hne
  · exact .inr ⟨ho, hnr, pl, rr, hsig, hout⟩
  · exact absurd hnr hne

/-- A bit that is kept is neither set nor cleared. -/
theorem bit_kept {a b : Bit} (h : b = a) {P Q : Prop} :
    (a = false → b = true → P) ∧ (a = true → b = false → Q) := by
  subst h
  exact ⟨fun h0 h1 => (nomatch h0.symm.trans h1), fun h1 h0 => (nomatch h1.symm.trans h0)⟩

/-- Settles O51: of the moves of the session bits, a DISC in `receive` sets `disc_pending` and `open` clears it. -/
theorem discPendingWriters : Obligations.DiscPendingWriters := by
  unfold Obligations.DiscPendingWriters
  intro s t h
  rcases step_bits h with hb | ⟨hopen, -, hb⟩ | ⟨-, -, -, hb⟩ | ⟨-, hb, -⟩ | ⟨ho, hsig, hb, hout⟩ <;>
    obtain ⟨-, hb⟩ := Prod.mk.inj hb <;> obtain ⟨-, hd⟩ := Prod.mk.inj hb
  · exact bit_kept hd
  · exact ⟨fun _ h1 => (nomatch hd.symm.trans h1), fun _ _ => hopen⟩
  · exact bit_kept hd
  · exact bit_kept hd
  · exact ⟨fun _ _ => ⟨ho, hsig, hout⟩, fun _ h0 => (nomatch hd.symm.trans h0)⟩

/-! ### An idle core, and a waiting send (R411; spec/20_memory.md R82) -/

/-- Settles O53: without a command only the environment moves an idle core, whose timer is off. -/
theorem idleCoreKeepsState : Obligations.IdleCoreKeepsState := by
  unfold Obligations.IdleCoreKeepsState
  intro s t h ho hn hstep
  obtain ⟨-, hm⟩ := step_move hstep
  cases hm with
  | quiet | arrival => rfl
  | command _ _ _ _ hi => simp [State.nextCommand, hi] at hn
  | silentByte _ _ _ _ _ hne => exact absurd ho hne
  | signalByte _ _ _ _ _ _ _ hne => exact absurd ho hne
  | expiry _ _ _ ha => simp [h.timerArmed_of_idle ho] at ha

/-- The frame of a `send` with its length and its bit (R40, R47 (f)). -/
def State.sendRegs (s : State) : Bytes × Nat × Bit := (s.txbuf, s.txLen, s.ns)

/-- The frame outstanding is kept, and nothing or that frame is put out. -/
def KeepsOutstanding (u t : State) : Prop :=
  t.sendRegs = u.sendRegs ∧ (t.out = u.out ∨ t.out = u.out ++ [Record.tx u.txbuf])

theorem RetryMove.keepsOutstanding {u t : State} (hm : RetryMove u t) (ht : t.op ≠ .idle) : KeepsOutstanding u t := by
  cases hm with
  | again => exact ⟨rfl, .inr rfl⟩
  | exhausted =>
    rw [raiseErr_eq] at ht
    exact absurd rfl ht

/-- A signal that leaves a `send` waiting is ignored, or a REJ that has the frame sent again (R324). -/
theorem SignalMove.keepsOutstanding {u t : State} {sg : Signal} (hm : SignalMove u sg t) (hu : u.op = .sendWaitAck)
    (ht : t.op = .sendWaitAck) : KeepsOutstanding u t := by
  have hne : t.op ≠ .idle := by rw [ht]; decide
  cases hm with
  | ignored => exact ⟨rfl, .inl rfl⟩
  | rejected _ _ _ _ hr => exact hr.keepsOutstanding hne
  | acknowledged => exact absurd rfl hne
  | overflowed =>
    rw [raiseErr_eq] at hne
    exact absurd rfl hne
  | accepted ho | established ho | closedByUa ho | closedByDisc ho | peerCloses ho | discAnswered ho
    | discRepeated _ ho | delivered _ ho | duplicate _ _ ho | corrupted _ ho =>
    exact absurd (hu.symm.trans ho) (by decide)

/-- A command is taken by an idle core only (spec/41_receiver_fsm.md R242). -/
theorem CommandMove.idle {u t : State} {i : Instr} (hm : CommandMove u i t) : u.op = .idle := by
  cases hm <;> assumption

/-- Settles O55: the host has no command then, and only a REJ or an expiry that retransmits keeps the wait. -/
theorem oneFrameOutstanding : Obligations.OneFrameOutstanding := by
  unfold Obligations.OneFrameOutstanding
  intro s t h hs ht
  suffices hk : KeepsOutstanding s t by
    obtain ⟨hregs, hout⟩ := hk
    simp only [State.sendRegs, Prod.mk.injEq] at hregs
    obtain ⟨hbuf, hlen, hns⟩ := hregs
    exact ⟨hbuf, hlen, hns, hout⟩
  obtain ⟨-, hm⟩ := step_move h
  cases hm with
  | quiet | arrival | silentByte => exact ⟨rfl, .inl rfl⟩
  | command _ _ _ _ _ hc =>
    exact absurd (hs.symm.trans hc.idle) (by decide)
  | signalByte _ _ _ _ _ _ _ _ _ _ _ hsig => exact hsig.keepsOutstanding hs ht
  | expiry _ _ _ _ hr => exact hr.keepsOutstanding (by rw [ht]; decide)

end Sys2Proof.Machine
end


section
/-! SUPPORT. One event at a time (spec/41_receiver_fsm.md R240 to R243, spec/44_timer.md R381, R382): what a command, a
byte, an expiry or an arrival runs, the SET and UA frames, and the reads of a configuration nobody wrote. -/

namespace Sys2Proof.Machine

/-! ### An unwritten configuration (spec/10_state.md R49) -/

section
variable {s : State} (hw : s.cfgWritten = false)
include hw

theorem withRole_unwritten (k : Role → Result) : withRole s k = .fault .configUnwritten := by
  simp [withRole, hw]

theorem retransmitOrFail_unwritten : retransmitOrFail s = .fault .configUnwritten := by
  simp [retransmitOrFail, withMaxAttempts, hw]

theorem exec_hostCommand_unwritten (ho : s.op = .idle) (hl : s.link = .connected) :
    (∀ pl, exec (.hostSend pl) s = .fault .configUnwritten) ∧ exec .hostReceive s = .fault .configUnwritten ∧
    ∀ c, exec (.hostClose c) s = .fault .configUnwritten := by
  refine ⟨fun pl => ?_, ?_, fun c => ?_⟩
  · simp [exec, execHostSend, whenIdle, ho, hl, withRole_unwritten hw]
  · simp [exec, execHostReceive, whenIdle, ho, hl, withRole_unwritten hw]
  · simp [exec, execHostClose, whenIdle, ho, hl, withRole_unwritten hw]

end

/-! ### The four codes of CMD (spec/30_encoding.md R120) -/

theorem decodeHost_open {w : HostWord} (h : w.cmd = 0b00#2) :
    decodeHost w = .hostOpen (Role.ofBit w.role) w.maxAttempts w.timeout w.device w.baud := by
  rw [decodeHost, if_pos h]

theorem decodeHost_send {w : HostWord} (h : w.cmd = 0b01#2) : decodeHost w = .hostSend w.payload := by
  simp [decodeHost, h]

theorem decodeHost_receive {w : HostWord} (h : w.cmd = 0b10#2) : decodeHost w = .hostReceive := by
  simp [decodeHost, h]

theorem decodeHost_close {w : HostWord} (h : w.cmd = 0b11#2) : decodeHost w = .hostClose w.collect := by
  simp [decodeHost, h]

/-! ### What a step runs (R240, R242, R243) -/

section
variable {s : State} {rest : List Input} (hl : s.params.legal = true)
include hl

theorem step_cmd {w : HostWord} {ok : Bit} (hi : s.inputs = .cmd w ok :: rest) :
    step s = exec (decodeHost w) (s.takeCommand rest ok) := by simp only [step, if_pos hl, hi]

theorem step_arrive {bs : Bytes} (hi : s.inputs = .arrive bs :: rest) : step s = .next (s.takeArrival rest bs) := by
  simp only [step, if_pos hl, hi]

theorem step_rxByte (hi : s.inputs = .rxByte :: rest) : step s = execRxByte exec (s.pop rest) := by
  simp only [step, if_pos hl, hi]

theorem step_expire (hi : s.inputs = .expire :: rest) : step s = execExpire (s.pop rest) := by
  simp only [step, if_pos hl, hi]

theorem step_quiet (hi : s.inputs = []) : step s = .next s := by simp only [step, if_pos hl, hi]

end

section
variable {s : State} {run : Instr → State → Result}

theorem execRxByte_refused (h : s.op = .idle ∨ s.chanRx = []) : execRxByte run s = .refused .rxNotEnabled := by
  by_cases ho : s.op = .idle
  · rw [execRxByte, if_pos ho]
  · rw [execRxByte, if_neg ho, h.resolve_left ho]

section
variable {b : Byte} {q : Bytes} (ho : s.op ≠ .idle) (hq : s.chanRx = b :: q)
include ho hq

theorem execRxByte_unwritten (hw : s.cfgWritten = false) : execRxByte run s = .fault .configUnwritten := by
  rw [execRxByte, if_neg ho, hq]
  exact withRole_unwritten hw _

section
variable (hw : s.cfgWritten = true) {r : ParserRegs}
include hw

theorem execRxByte_silent (hr : rxStep s.params (peerAddr s.params s.cfgRole) b s.rx = (r, none)) :
    execRxByte run s = .next (s.afterByte r q) := by
  simp only [execRxByte, if_neg ho, hq, withRole, hw, if_true, hr]

theorem execRxByte_signal {sg : Signal} (hr : rxStep s.params (peerAddr s.params s.cfgRole) b s.rx = (r, some sg)) :
    execRxByte run s = handleSignal run sg (s.afterByte r q) := by
  simp only [execRxByte, if_neg ho, hq, withRole, hw, if_true, hr]

end

end

end

/-- Settles O18: each rule that reads a configuration register stops at the read. -/
theorem unwrittenConfigFaults : Obligations.UnwrittenConfigFaults := by
  unfold Obligations.UnwrittenConfigFaults
  intro s hw
  refine ⟨exec_hostCommand_unwritten hw, fun ho => ⟨?_, ?_⟩, fun ho => ?_, fun ha => ?_,
    fun rest hl hi ho hq => ?_, ?_⟩
  · rw [exec_rej (.inl rfl), rejReceived_of_sendWaitAck ho, retransmitOrFail_unwritten hw]
  · rw [exec_rej (.inr rfl), rejReceived_of_sendWaitAck ho, retransmitOrFail_unwritten hw]
  · rw [exec_disc_of_closeRxWaitUa ho, retransmitOrFail_unwritten hw]
  · rw [execExpire, if_pos ha]
    exact retransmitOrFail_unwritten (s := s.disarm) hw
  · obtain ⟨b, q, hbq⟩ := List.exists_cons_of_ne_nil hq
    rw [step_rxByte hl hi]
    exact execRxByte_unwritten (s := s.pop rest) ho hbq hw
  · simp [State.cfgView, hw]

theorem whenIdle_busy {s : State} (ho : s.op ≠ .idle) (r : Result) : whenIdle s r = .refused .hostBusy := if_neg ho

/-- Settles O19: every command asks first whether the core is idle. -/
theorem commandsWaitForIdle : Obligations.CommandsWaitForIdle := by
  unfold Obligations.CommandsWaitForIdle
  exact fun s ho => ⟨fun _ _ _ _ _ => whenIdle_busy ho _, fun _ => whenIdle_busy ho _, whenIdle_busy ho _,
    fun _ => whenIdle_busy ho _⟩

/-- Settles O39: the command input's arm of `step`, and the four codes of CMD. -/
theorem stepRunsCommand : Obligations.StepRunsCommand := by
  unfold Obligations.StepRunsCommand
  intro s w ok rest hl hi
  exact ⟨step_cmd hl hi, decodeHost_open, decodeHost_send, decodeHost_receive, decodeHost_close⟩

theorem peerAddr_eq (p : Params) (role : Role) : peerAddr p role = if role = .sender then p.aR else p.aS := by
  cases role <;> rfl

/-- Settles O40: the RX step with the peer's address written out; a frame's signal is handled by its instruction. -/
theorem stepRunsReceivedByte : Obligations.StepRunsReceivedByte := by
  unfold Obligations.StepRunsReceivedByte
  intro s b q rest r sig hl hi ho hw hq hr
  rw [← peerAddr_eq] at hr
  rw [step_rxByte hl hi]
  have hsignal : ∀ sg, sig = some sg → execRxByte exec (s.pop rest)
      = handleSignal exec sg { s with rx := r, chanRx := q, inputs := rest } := by
    rintro sg rfl
    exact execRxByte_signal (s := s.pop rest) ho hq hw hr
  refine ⟨?_, hsignal, fun sg i hsg hi => ?_⟩
  · rintro rfl
    exact execRxByte_silent (s := s.pop rest) ho hq hw hr
  · rw [hsignal sg hsg, handleSignal_instr exec hi]

/-- Settles O41: the other arms of `step`. -/
theorem stepOtherInputs : Obligations.StepOtherInputs := by
  unfold Obligations.StepOtherInputs
  intro s rest hl
  refine ⟨fun hi h => ?_, step_expire hl, fun _ => step_arrive hl, step_quiet hl⟩
  rw [step_rxByte hl hi]
  exact execRxByte_refused (s := s.pop rest) h

/-! ### SET and UA (spec/42_connection.md R267, R268, R277) -/

section
variable {s : State}

theorem exec_set_of_openRxWaitSet (ho : s.op = .openRxWaitSet) : exec .set s = .next
    (((s.emit (supFrame s.params s.params.aR s.params.cUa)).setLink .connected).respond .ok .unit) := by
  simp only [exec, execSet, ho]

theorem exec_set_ignored (hi : s.op ≠ .idle) (ho : s.op ≠ .openRxWaitSet) : exec .set s = .next s := by
  simp only [exec]
  unfold execSet
  split
  case h_1 h => exact absurd h hi
  case h_2 h => exact absurd h ho
  all_goals rfl

theorem exec_set_of_idle (ho : s.op = .idle) : exec .set s = .refused .rxNotEnabled := by
  simp only [exec, execSet, ho]

theorem exec_ua_of_openTxWaitUa (ho : s.op = .openTxWaitUa) :
    exec .ua s = .next ((s.disarm.setLink .connected).respond .ok .unit) := by
  simp only [exec, execUa, ho]

theorem exec_ua_of_closeRxWaitUa (ho : s.op = .closeRxWaitUa) : exec .ua s = .next s.disarm.finishClose := by
  simp only [exec, execUa, ho]

theorem exec_ua_ignored (hi : s.op ≠ .idle) (ho : s.op ≠ .openTxWaitUa) (hc : s.op ≠ .closeRxWaitUa) :
    exec .ua s = .next s := by
  simp only [exec]
  unfold execUa
  split
  case h_1 h => exact absurd h hi
  case h_2 h => exact absurd h ho
  case h_3 h => exact absurd h hc
  all_goals rfl

theorem exec_ua_of_idle (ho : s.op = .idle) : exec .ua s = .refused .rxNotEnabled := by
  simp only [exec, execUa, ho]

/-- The Receiver's UA, as one record update (R268). -/
theorem acceptSession_eq (s : State) (bs : Bytes) :
    ((s.emit bs).setLink .connected).respond .ok .unit = { s with
      link := .connected, op := .idle, out := s.out ++ [.tx bs, .resp .ok .unit] } := by
  simp [State.emit, State.log, State.setLink, State.respond]

/-- The end of a Receiver's `close`, as one record update (R277, R279). -/
theorem disarm_finishClose_eq (s : State) :
    s.disarm.finishClose = { s with
      timerArmed := false, link := .disconnected, op := .idle,
      out := s.out ++ [.chanRestore, .chanClose, .resp .ok (closeValue s)] } := by
  rw [finishClose_eq]
  rfl

end

/-- Settles O22: the column SUP(SET), wait by wait. -/
theorem setFrameMeaning : Obligations.SetFrameMeaning := by
  unfold Obligations.SetFrameMeaning
  intro s
  refine ⟨fun ho => ?_, exec_set_ignored, exec_set_of_idle⟩
  rw [exec_set_of_openRxWaitSet ho, acceptSession_eq]

/-- Settles O23: the column SUP(UA), wait by wait. -/
theorem uaFrameMeaning : Obligations.UaFrameMeaning := by
  unfold Obligations.UaFrameMeaning
  intro s
  refine ⟨fun ho => ?_, fun ho => ?_, exec_ua_ignored, exec_ua_of_idle⟩
  · rw [exec_ua_of_openTxWaitUa ho]
    rfl
  · rw [exec_ua_of_closeRxWaitUa ho, disarm_finishClose_eq, closeValue]

/-! ### The expiry (spec/44_timer.md R381, R382) -/

section
variable {s : State}

/-- A retransmission, as one record update (R381). -/
theorem retransmit_eq (s : State) : s.retransmit = { s with
    timerArmed := true, txCount := s.txCount + 1, statRetx := s.statRetx + 1, out := s.out ++ [.tx s.txbuf] } := rfl

theorem execExpire_retransmits (ha : s.timerArmed = true) (hw : s.cfgWritten = true)
    (hm : s.txCount < s.cfgMaxAttempts) : execExpire s = .next s.retransmit := by
  rw [execExpire, if_pos ha]
  exact retransmitOrFail_of_lt (s := s.disarm) hw hm

theorem execExpire_exhausted (ha : s.timerArmed = true) (hw : s.cfgWritten = true)
    (hm : s.cfgMaxAttempts ≤ s.txCount) : execExpire s = .next (s.raiseErr .errAttemptsExhausted) := by
  rw [execExpire, if_pos ha]
  exact retransmitOrFail_of_le (s := s.disarm) hw hm

theorem execExpire_disarmed (ha : s.timerArmed = false) : execExpire s = .refused .expireNotEnabled := by
  simp [execExpire, ha]

end

/-- Settles O34: the expiry splits on the attempts left; a disarmed timer has none. -/
theorem expiryMeaning : Obligations.ExpiryMeaning := by
  unfold Obligations.ExpiryMeaning
  intro s
  refine ⟨fun ha hw hm => ?_, fun ha hw hm => ?_, execExpire_disarmed⟩
  · rw [execExpire_retransmits ha hw hm, retransmit_eq]
  · rw [execExpire_exhausted ha hw hm, raiseErr_eq, List.append_assoc]

/-! ### Result codes (spec/60_exceptions.md R400) -/

/-- The ten codes, in the order of their numbers (R400). -/
def allCodes : List Code :=
  [.ok, .peerClosing, .errInvalidPayload, .errInvalidConfig, .errChannel, .errAttemptsExhausted, .errBufferOverflow,
    .errNotOpen, .errAlreadyOpen, .errWrongRole]

/-- A code stands in the list at the place of its number. -/
theorem allCodes_num (c : Code) : allCodes[c.num]? = some c := by cases c <;> rfl

/-- Settles O36: the numbers are the places in the list of the ten codes, so each is below ten and no two agree. -/
theorem resultCodeNumbers : Obligations.ResultCodeNumbers := by
  unfold Obligations.ResultCodeNumbers
  refine ⟨by decide, fun c => ?_, fun c d h => ?_⟩
  · obtain ⟨hlt, -⟩ := List.getElem?_eq_some_iff.1 (allCodes_num c)
    exact Nat.le_of_lt_succ hlt
  · exact Option.some.inj ((allCodes_num c).symm.trans (h ▸ allCodes_num d))

end Sys2Proof.Machine
end


section
/-! SUPPORT. Runs of several steps: a timed wait that nothing but its timer ends (spec/44_timer.md R385), a frame that
comes twice (spec/43_arq.md R337), and two cores over a loss-free channel (R329, spec/42_connection.md R280). -/

namespace Sys2Proof.Machine

/-! ### A timed wait with no other event (spec/44_timer.md R385) -/

/-- The state after `n` retransmissions and the failure that follows them (R381 with R401, R404). -/
def State.exhausted (s : State) (n : Nat) (rest : List Input) : State :=
  { s with
    timerArmed := false, txCount := s.cfgMaxAttempts, statRetx := s.statRetx + BitVec.ofNat 32 n,
    link := cleanupLink s.op s.link, op := .idle,
    out := s.out ++ List.replicate n (.tx s.txbuf) ++ cleanupRecords s.op ++ [.resp .errAttemptsExhausted .unit],
    inputs := rest }

/-- With no attempt left the next expiry fails the operation. -/
theorem raiseErr_eq_exhausted {s : State} (h : s.txCount = s.cfgMaxAttempts) (rest : List Input) :
    (s.pop rest).raiseErr .errAttemptsExhausted = s.exhausted 0 rest := by
  rw [raiseErr_eq]
  simp [State.pop, State.exhausted, ← h]

/-- A retransmission stands before those that are left. -/
theorem exhausted_retransmit (s : State) (n : Nat) (ins rest : List Input) :
    (s.pop ins).retransmit.exhausted n rest = s.exhausted (n + 1) rest := by
  have hcount : s.statRetx + 1#32 + BitVec.ofNat 32 n = s.statRetx + BitVec.ofNat 32 (n + 1) := by
    rw [BitVec.ofNat_add, BitVec.add_assoc, BitVec.add_comm 1#32]
  simp [retransmit_eq, State.pop, State.exhausted, hcount, List.replicate_succ]

/-- With `n` attempts left, `n + 1` expiries in a row retransmit `n` times and then fail the operation. -/
theorem run_expiries (n : Nat) {s : State} {rest : List Input} (hl : s.params.legal = true)
    (hw : s.cfgWritten = true) (ha : s.timerArmed = true) (hn : s.txCount + n = s.cfgMaxAttempts)
    (hi : s.inputs = List.replicate (n + 1) .expire ++ rest) :
    core.run (n + 1) s = .next (s.exhausted n rest) := by
  induction n generalizing s with
  | zero =>
    have hstep := (step_expire hl hi).trans (execExpire_exhausted (s := s.pop rest) ha hw hn.ge)
    rw [raiseErr_eq_exhausted hn] at hstep
    exact (run_one s).trans hstep
  | succ n ih =>
    have hstep := (step_expire hl hi).trans
      (execExpire_retransmits (s := s.pop _) ha hw (show s.txCount < s.cfgMaxAttempts by omega))
    have hleft : s.txCount + 1 + n = s.cfgMaxAttempts := by omega
    rw [run_succ _ hstep, ← exhausted_retransmit s n (List.replicate (n + 1) .expire ++ rest)]
    exact ih hl hw rfl hleft rfl

/-- Settles O37: by induction over the attempts left. -/
theorem timedWaitExhausts : Obligations.TimedWaitExhausts := by
  unfold Obligations.TimedWaitExhausts
  exact fun _ n _ hl hw ha hn hi => run_expiries n hl hw ha hn hi

/-- Settles O38: the first transmission, and then a timed wait with M - 1 attempts left. -/
theorem sendFailsAfterExactlyM : Obligations.SendFailsAfterExactlyM := by
  unfold Obligations.SendFailsAfterExactlyM
  intro s w ok rest hl ho hlink hw hr hM hcmd h1 hP hi
  obtain ⟨n, hn⟩ := Nat.exists_eq_add_of_le' hM
  rw [hn] at hi ⊢
  have hpayload := (sendPayloadBad_eq_false_iff s.params w.payload).2 ⟨h1, hP⟩
  have hstep := step_cmd hl hi
  rw [decodeHost_send hcmd] at hstep
  have hsent := hstep.trans (exec_hostSend_transmits (s := s.takeCommand _ ok) ho _ hlink hw hr hpayload)
  rw [sendWait_eq] at hsent
  have hleft : 1 + n = s.cfgMaxAttempts := by omega
  have hrun := (run_succ _ hsent).trans (run_expiries n (rest := rest) hl hw rfl hleft rfl)
  refine ⟨_, hrun, ?_, rfl, hlink, rfl, rfl⟩
  simp [State.exhausted, cleanupRecords, List.replicate_succ]

/-! ### A frame that comes again (spec/43_arq.md R337) -/

section
variable (s : State) (pl : Bytes)

@[simp] theorem deliver_op : (s.deliver pl).op = .idle := by rw [deliver_eq]

@[simp] theorem deliver_nr : (s.deliver pl).nr = !s.nr := by rw [deliver_eq]

@[simp] theorem deliver_out : (s.deliver pl).out = s.out
    ++ [Record.tx (supFrame s.params s.params.aR (ctrl s.params (rrKind (!s.nr)))), .resp .ok (.payload pl)] := by
  rw [deliver_eq]

@[simp] theorem deliver_keeps : (s.deliver pl).params = s.params ∧ (s.deliver pl).cfgRole = s.cfgRole ∧
    (s.deliver pl).cfgWritten = s.cfgWritten ∧ (s.deliver pl).link = s.link ∧
    (s.deliver pl).discPending = s.discPending := by
  rw [deliver_eq]
  exact ⟨rfl, rfl, rfl, rfl, rfl⟩

end

/-- Settles O33: the second time the frame's bit is not the new `nr`, so it is acknowledged as a duplicate. -/
theorem duplicateNotDeliveredTwice : Obligations.DuplicateNotDeliveredTwice := by
  unfold Obligations.DuplicateNotDeliveredTwice
  rintro s pl rr ho hl hw hr hd rfl
  have hfirst := (exec_info s.nr pl s).trans (infoReceived_of_eq_nr ho rfl)
  have hagain := exec_hostReceive_waits (s := s.deliver pl) (by simp) (by simpa) (by simpa) (by simpa) (by simpa)
  have hsecond := (exec_info s.nr pl ((s.deliver pl).parserReset.setOp .recvWait)).trans
    (infoReceived_of_ne_nr (by simp) (by simp))
  refine ⟨_, _, _, hfirst, ?_, hagain, rfl, hsecond, ?_, by simp, rfl, rfl, rfl⟩
  · rw [deliver_out, ctrl_rrKind_not]
  · rw [emitReply_eq]
    simp [ctrl_rrKind_not]

/-! ### A command, and the peer's answer to it -/

/-- The parser has read a whole frame of kind `k`, and the environment has nothing more. -/
def State.afterFrame (s : State) (k : FrameKind) : State :=
  { s with rx := { state := .start, ctrl := k, buf := [] }, chanRx := [], inputs := [] }

/-- The peer's frame arrives and is read, byte by byte. -/
def peerFrame (bs : Bytes) : List Input := .arrive bs :: List.replicate bs.length .rxByte

/-- A command `c` that leaves a wait with the parser at rest, and then the whole frame that the peer answers. -/
theorem run_exchange {s u : State} {w : HostWord} {ok : Bit} {bs : Bytes} {c i : Instr} {k : FrameKind}
    (hl : s.params.legal = true) (hq : s.chanRx = []) (hi : s.inputs = .cmd w ok :: peerFrame bs)
    (hc : decodeHost w = c) (hu : exec c (s.takeCommand (peerFrame bs) ok) = .next u)
    (ho : u.op ≠ .idle) (hw : u.cfgWritten = true) (hrx : u.rx.state = .start) (hwf : i.wf s.params = true)
    (hk : frameKind? i = some k) (hb : frameBytes s.params (peerAddr s.params u.cfgRole) i = some bs) :
    core.run (2 + bs.length) s = exec i (u.afterFrame k) := by
  subst hc
  obtain ⟨hp, hqu, hiu⟩ := fixedRegs_inj (command_move hu).fixedRegs
  simp only [State.takeCommand_keeps, State.takeCommand_inputs] at hp hqu hiu
  rw [← hp] at hwf hb
  have hlu : u.params.legal = true := hp ▸ hl
  have hrun : core.run 2 s = .next (u.takeArrival (List.replicate bs.length .rxByte) bs) :=
    (run_succ 1 ((step_cmd hl hi).trans hu)).trans ((run_one u).trans (step_arrive hlu hiu))
  have hq' : (u.takeArrival (List.replicate bs.length .rxByte) bs).chanRx = bs ++ [] := by simp [hqu, hq]
  exact (run_add _ _ hrun).trans
    (run_frame (s := u.takeArrival _ bs) hlu ho hw hrx hwf hk hb hq' (List.append_nil _).symm)

/-! ### Establishment (spec/42_connection.md R280) -/

section
variable {s : State} {w : HostWord} (hl : s.params.legal = true) (ho : s.op = .idle)
  (hlink : s.link = .disconnected) (hq : s.chanRx = []) (hcmd : w.cmd = 0b00#2) (hm : 1 ≤ w.maxAttempts.toNat)
  (hM : w.maxAttempts.toNat ≤ s.params.maxAttemptsLimit) (ht : 1 ≤ w.timeout.toNat)
include hl ho hlink hq hcmd hm hM ht

/-- The Sender opens, and the peer's UA comes. -/
theorem run_open_sender (hr : w.role = false)
    (hi : s.inputs = .cmd w true :: .arrive (supFrame s.params s.params.aR s.params.cUa)
      :: List.replicate 5 .rxByte) :
    ∃ t, core.run 7 s = .next t ∧
      t.out = s.out ++ [Record.chanOpen w.device w.baud, .tx (supFrame s.params s.params.aS s.params.cSet),
        .resp .ok .unit] ∧
      t.link = .connected ∧ t.op = .idle ∧ t.cfgRole = .sender ∧ t.ns = false ∧ t.chanRx = [] := by
  have hc := (openConfigBad_eq_false_iff s.params w.maxAttempts w.timeout).2 ⟨hm, hM, ht⟩
  have hcommand := decodeHost_open hcmd
  rw [hr] at hcommand
  have hopen := exec_hostOpen_created
    (s := s.takeCommand (peerFrame (supFrame s.params s.params.aR s.params.cUa)) true) (role := .sender)
    ho hlink w.device w.baud hc rfl
  rw [openedSession_sender_eq] at hopen
  have hrun := (run_exchange (i := .ua) hl hq hi hcommand hopen (by decide : Op.openTxWaitUa ≠ .idle)
    rfl rfl rfl rfl rfl).trans (exec_ua_of_openTxWaitUa rfl)
  exact ⟨_, hrun, by simp [State.afterFrame], rfl, rfl, rfl, rfl, rfl⟩

/-- The Receiver opens, and the peer's SET comes. -/
theorem run_open_receiver (hr : w.role = true)
    (hi : s.inputs = .cmd w true :: .arrive (supFrame s.params s.params.aS s.params.cSet)
      :: List.replicate 5 .rxByte) :
    ∃ t, core.run 7 s = .next t ∧
      t.out = s.out ++ [Record.chanOpen w.device w.baud, .tx (supFrame s.params s.params.aR s.params.cUa),
        .resp .ok .unit] ∧
      t.link = .connected ∧ t.op = .idle ∧ t.cfgRole = .receiver ∧ t.nr = false ∧ t.chanRx = [] := by
  have hc := (openConfigBad_eq_false_iff s.params w.maxAttempts w.timeout).2 ⟨hm, hM, ht⟩
  have hcommand := decodeHost_open hcmd
  rw [hr] at hcommand
  have hopen := exec_hostOpen_created
    (s := s.takeCommand (peerFrame (supFrame s.params s.params.aS s.params.cSet)) true) (role := .receiver)
    ho hlink w.device w.baud hc rfl
  rw [openedSession_receiver_eq] at hopen
  have hrun := (run_exchange (i := .set) hl hq hi hcommand hopen (by decide : Op.openRxWaitSet ≠ .idle)
    rfl rfl rfl rfl rfl).trans (exec_set_of_openRxWaitSet rfl)
  exact ⟨_, hrun, by simp [State.afterFrame], rfl, rfl, rfl, rfl, rfl⟩

end

/-- Settles O56: each side's run with the frame the other emits. -/
theorem lossFreeEstablishment : Obligations.LossFreeEstablishment := by
  unfold Obligations.LossFreeEstablishment
  intro a r wa wr hl hp hoa hor hla hlr hqa hqr hca hra hcr hrr hma hMa hta hmr hMr htr hia hir
  rw [← hp] at hir hMr
  obtain ⟨a', hruna, houta, hlinka, hopa, hrolea, hnsa, hchana⟩ :=
    run_open_sender hl hoa hla hqa hca hma hMa hta hra hia
  obtain ⟨r', hrunr, houtr, hlinkr, hopr, hroler, hnrr, hchanr⟩ :=
    run_open_receiver (by rw [hp]; exact hl) hor hlr hqr hcr hmr hMr htr hrr hir
  rw [hp] at houtr
  exact ⟨a', r', hruna, hrunr, houta, houtr, hlinka, hlinkr, hopa, hopr, hrolea, hroler, hnsa, hnrr, hchana, hchanr⟩

/-! ### One exchange (spec/43_arq.md R329) -/

/-- The RR frame with bit `m`. -/
def rrInstr (m : Bit) : Instr := if m then .rr1 else .rr0

theorem frameKind?_rrInstr (m : Bit) : frameKind? (rrInstr m) = some (rrKind m) := by cases m <;> rfl

theorem frameBytes_rrInstr (p : Params) (a : Byte) (m : Bit) :
    frameBytes p a (rrInstr m) = some (supFrame p a (ctrl p (rrKind m))) := by cases m <;> rfl

theorem wf_rrInstr (p : Params) (m : Bit) : (rrInstr m).wf p = true := by cases m <;> rfl

section
variable {s : State} {w : HostWord} {ok : Bit} (hl : s.params.legal = true) (ho : s.op = .idle)
  (hlink : s.link = .connected) (hw : s.cfgWritten = true) (hq : s.chanRx = [])
include hl ho hlink hw hq

/-- The Sender sends, and the RR of the toggled bit comes. -/
theorem run_send {ack : Bytes} (hr : s.cfgRole = .sender) (hcmd : w.cmd = 0b01#2) (h1 : 1 ≤ w.payload.length)
    (hP : w.payload.length ≤ s.params.maxPayload)
    (hack : ack = supFrame s.params s.params.aR (if s.ns then s.params.cRr0 else s.params.cRr1))
    (hi : s.inputs = .cmd w ok :: .arrive ack :: List.replicate ack.length .rxByte) :
    ∃ t, core.run (2 + ack.length) s = .next t ∧
      t.out = s.out ++ [Record.tx (infoFrame s.params s.params.aS s.ns w.payload),
        .resp .ok (.bytesSent w.payload.length)] ∧
      t.ns = !s.ns ∧ t.link = .connected ∧ t.op = .idle ∧ t.chanRx = [] := by
  have hpayload := (sendPayloadBad_eq_false_iff s.params w.payload).2 ⟨h1, hP⟩
  have hb : frameBytes s.params (peerAddr s.params s.cfgRole) (rrInstr !s.ns) = some ack := by
    rw [frameBytes_rrInstr, ctrl_rrKind_not, hr, hack]
    rfl
  have hsend := exec_hostSend_transmits (s := s.takeCommand (peerFrame ack) ok) ho _ hlink hw hr hpayload
  rw [sendWait_eq] at hsend
  have hrun := (run_exchange hl hq hi (decodeHost_send hcmd) hsend (by decide : Op.sendWaitAck ≠ .idle) hw rfl
    (wf_rrInstr _ _) (frameKind?_rrInstr _) hb).trans ((exec_rr _ _).trans (ackReceived_of_ne_ns rfl rfl))
  rw [acknowledgedSend_eq] at hrun
  exact ⟨_, hrun, by simp [State.afterFrame], rfl, hlink, rfl, rfl⟩

/-- The Receiver receives, and a frame of the bit it expects comes. -/
theorem run_receive {frame payload : Bytes} (hr : s.cfgRole = .receiver) (hd : s.discPending = false)
    (hcmd : w.cmd = 0b10#2) (hP : payload.length ≤ s.params.maxPayload)
    (hframe : frame = infoFrame s.params s.params.aS s.nr payload)
    (hi : s.inputs = .cmd w ok :: .arrive frame :: List.replicate frame.length .rxByte) :
    ∃ t, core.run (2 + frame.length) s = .next t ∧
      t.out = s.out ++ [Record.tx (supFrame s.params s.params.aR (if s.nr then s.params.cRr0 else s.params.cRr1)),
        .resp .ok (.payload payload)] ∧
      t.nr = !s.nr ∧ t.link = .connected ∧ t.op = .idle ∧ t.chanRx = [] := by
  have hb : frameBytes s.params (peerAddr s.params s.cfgRole) (infoInstr s.nr payload) = some frame := by
    rw [frameBytes_of_encode (encode_infoInstr _ _ _ _), hr, hframe]
    rfl
  have hroom : payload.length + 1 ≤ s.params.rxBufCap := by have := legal_cap hl; omega
  have hreceive := exec_hostReceive_waits (s := s.takeCommand (peerFrame frame) ok) ho hlink hw hr hd
  have hrun := (run_exchange hl hq hi (decodeHost_receive hcmd) hreceive (by decide : Op.recvWait ≠ .idle) hw rfl
    (wf_infoInstr.2 hroom) (frameKind?_infoInstr _ _) hb).trans
      ((exec_info _ _ _).trans (infoReceived_of_eq_nr rfl rfl))
  rw [deliver_eq, ctrl_rrKind_not] at hrun
  exact ⟨_, hrun, rfl, rfl, hlink, rfl, rfl⟩

end

/-- Settles O57: each side's run with the frame the other emits; equal bits toggle to equal bits. -/
theorem lossFreeExchange : Obligations.LossFreeExchange := by
  unfold Obligations.LossFreeExchange
  intro a r wa wr oka okr frame ack hl hp hoa hor hla hlr hwa hwr hra hrr hd hbit hqa hqr hca h1 hP hcr hframe hack
    hia hir
  obtain ⟨a', hruna, houta, hnsa, hlinka, hopa, hchana⟩ :=
    run_send hl hoa hla hwa hqa hra hca h1 hP hack hia
  obtain ⟨r', hrunr, houtr, hnrr, hlinkr, hopr, hchanr⟩ :=
    run_receive (by rw [hp]; exact hl) hor hlr hwr hqr hrr hd hcr (by rw [hp]; exact hP)
      (by rw [hp, ← hbit]; exact hframe) hir
  rw [← hframe] at houta
  rw [hp, ← hbit, ← hack] at houtr
  exact ⟨a', r', hruna, hrunr, houta, houtr, hnsa, hnrr, by rw [hnsa, hnrr, hbit], hlinka, hlinkr, hopa, hopr,
    hchana, hchanr⟩

/-! ### Teardown (spec/42_connection.md R280) -/

section
variable {s : State} {w : HostWord} {ok : Bit} (hl : s.params.legal = true) (ho : s.op = .idle)
  (hlink : s.link = .connected) (hw : s.cfgWritten = true) (hq : s.chanRx = []) (hcmd : w.cmd = 0b11#2)
include hl ho hlink hw hq hcmd

/-- The Sender closes, and the peer's DISC comes. -/
theorem run_close_sender (hr : s.cfgRole = .sender)
    (hi : s.inputs = .cmd w ok :: .arrive (supFrame s.params s.params.aR s.params.cDisc)
      :: List.replicate 5 .rxByte) :
    ∃ t, core.run 7 s = .next t ∧
      t.out = s.out ++ [Record.tx (supFrame s.params s.params.aS s.params.cDisc),
        .tx (supFrame s.params s.params.aS s.params.cUa), .chanRestore, .chanClose,
        .resp .ok (if w.collect then .statistics s.statBytes s.statRetx else .unit)] ∧
      t.link = .disconnected ∧ t.op = .idle := by
  have hb : frameBytes s.params (peerAddr s.params s.cfgRole) .disc
      = some (supFrame s.params s.params.aR s.params.cDisc) := by
    rw [hr]
    rfl
  have hclose := exec_hostClose_closing
    (s := s.takeCommand (peerFrame (supFrame s.params s.params.aR s.params.cDisc)) ok) ho hlink hw hr w.collect
  rw [closeBegins_sender_eq] at hclose
  have hrun := (run_exchange (i := .disc) hl hq hi (decodeHost_close hcmd) hclose
    (by decide : Op.closeTxWaitDisc ≠ .idle) hw rfl rfl rfl hb).trans (exec_disc_of_closeTxWaitDisc rfl)
  rw [disarm_emit_finishClose_eq] at hrun
  exact ⟨_, hrun, by simp [State.afterFrame, closeValue], rfl, rfl⟩

/-- The Receiver closes after it has seen the DISC, and the peer's UA comes. -/
theorem run_close_receiver (hr : s.cfgRole = .receiver) (hd : s.discPending = true)
    (hi : s.inputs = .cmd w ok :: .arrive (supFrame s.params s.params.aS s.params.cUa)
      :: List.replicate 5 .rxByte) :
    ∃ t, core.run 7 s = .next t ∧
      t.out = s.out ++ [Record.tx (supFrame s.params s.params.aR s.params.cDisc), .chanRestore, .chanClose,
        .resp .ok (if w.collect then .statistics s.statBytes s.statRetx else .unit)] ∧
      t.link = .disconnected ∧ t.op = .idle := by
  have hb : frameBytes s.params (peerAddr s.params s.cfgRole) .ua
      = some (supFrame s.params s.params.aS s.params.cUa) := by
    rw [hr]
    rfl
  have hclose := exec_hostClose_closing
    (s := s.takeCommand (peerFrame (supFrame s.params s.params.aS s.params.cUa)) ok) ho hlink hw hr w.collect
  rw [startClose_receiver_of_discPending (by exact hd), replyDisc_eq] at hclose
  have hrun := (run_exchange (i := .ua) hl hq hi (decodeHost_close hcmd) hclose
    (by decide : Op.closeRxWaitUa ≠ .idle) hw rfl rfl rfl hb).trans (exec_ua_of_closeRxWaitUa rfl)
  rw [disarm_finishClose_eq] at hrun
  exact ⟨_, hrun, by simp [State.afterFrame, closeValue], rfl, rfl⟩

end

/-- Settles O58: each side's run with the frame the other emits. -/
theorem lossFreeTeardown : Obligations.LossFreeTeardown := by
  unfold Obligations.LossFreeTeardown
  intro a r wa wr oka okr hl hp hoa hor hla hlr hwa hwr hra hrr hd hqa hqr hca hcr hia hir
  rw [← hp] at hir
  obtain ⟨a', hruna, houta, hlinka, hopa⟩ := run_close_sender hl hoa hla hwa hqa hca hra hia
  obtain ⟨r', hrunr, houtr, hlinkr, hopr⟩ :=
    run_close_receiver (by rw [hp]; exact hl) hor hlr hwr hqr hcr hrr hd hir
  rw [hp] at houtr
  exact ⟨a', r', hruna, hrunr, houta, houtr, hlinka, hlinkr, hopa, hopr⟩

end Sys2Proof.Machine
end
